-- ==== Sys2Proof/Word.lean ====
section
/-! DEFINITION. The word types of the block (00_scope.md R9): bytes and command words. -/

namespace Sys2Proof

/-- A byte of a buffer or of a frame (R9). -/
abbrev Byte := BitVec 8

/-- A command word (R54). -/
abbrev Word := BitVec 32

end Sys2Proof
end

