-- ==== Sys2Proof/Config.lean ====
section
/-! DEFINITION. What an implementation fixes (the open parameters of 00_scope.md R7) and what the environment chooses
(10_state.md R36, R37; 20_memory.md R46; 60_exceptions.md R163).

`Config` is well formed by construction: each field's type admits exactly the values R7 and R8 admit, so no ill-formed
configuration can stand in a state. A parameter whose range starts at 1 is held less one. `RawConfig` in WellFormed.lean holds
the numbers as R7 lists them, and its check refuses what breaks R7 or R8.

TIME_UNIT and BUS_MAP are parameters like the others (93_implementation_defined.md I6), although no rule's effect depends on
them (10_state.md R37, 20_memory.md R39; log 16). -/

namespace Sys2Proof

/-! ## Parameters -/

/-- Control class of a product (10_state.md R25, 30_encoding.md R72). -/
inductive ControlClass
  /-- `None`, code 0. -/
  | none
  /-- `Always`, code 1. -/
  | always
  /-- `SmallWindow`, code 2: cacheable. -/
  | smallWindow
  deriving DecidableEq, Repr, Inhabited

/-- Extension of a device entry (10_state.md R25, 30_encoding.md R72). -/
inductive Extension
  /-- no extension, code 0. -/
  | none
  /-- `ValveState`, code 1. -/
  | valve
  /-- `ThermostatState`, code 2. -/
  | thermostat
  deriving DecidableEq, Repr, Inhabited

/-- What `PRODUCT_TABLE` says of a product. A valve or thermostat product has class SmallWindow (R8), so only a product
without an extension names its class. -/
inductive ProductKind
  | plain (cls : ControlClass)
  | valve
  | thermostat
  deriving DecidableEq, Repr, Inhabited

/-- A row of `PRODUCT_TABLE` (30_encoding.md R72). -/
structure ProductRow where
  prod : Byte
  kind : ProductKind
  wakeGated : Bool
  deriving DecidableEq, Repr, Inhabited

/-- The type codes `CMD_TABLE` may name (R8): the integer rows of 30_encoding.md R70. -/
inductive IntType
  | uint | uintBP4 | uintBP8 | uintBP12 | uintBP16 | uintBP20 | uintBP24
  | sint | sintBP8 | sintBP16 | sintBP24
  deriving DecidableEq, Repr, Inhabited

/-- A row of `CMD_TABLE` (30_encoding.md R73): command id 1..255, param id 1..127, type, length 0..15. -/
structure CmdRow where
  /-- the command id, less one. -/
  idLess1 : Fin 255
  /-- the param id, less one. -/
  pidLess1 : Fin 127
  type : IntType
  len : BitVec 4
  deriving DecidableEq, Repr, Inhabited

/-- `DEFAULT_MODE`, an opaque pair (modulation, operating mode) that only `set_mode` takes (45_radio_gate.md R146). -/
structure RadioMode where
  modulation : Nat
  operating : Nat
  deriving DecidableEq, Repr, Inhabited

/-- A duration (92_eei_decisions.md, open parameters): a fraction of a second (DESIGN CHOICE, log 16). -/
structure Duration where
  /-- the numerator, in seconds. -/
  num : Nat
  /-- the denominator, less one. -/
  denLess1 : Nat
  deriving DecidableEq, Repr, Inhabited

/-- The bus address that a platform gives a register or buffer of a context (20_memory.md R39): the form of an entry is a DESIGN
CHOICE (log 16). -/
structure BusEntry where
  context : Nat
  register : String
  address : Nat
  deriving DecidableEq, Repr, Inhabited

/-- The open parameters of 00_scope.md R7, and BUS_MAP of 20_memory.md R39. -/
structure Config where
  /-- `CRYPT_KEY`. -/
  cryptKey : Byte
  /-- `MFR_DEFAULT`. -/
  mfrDefault : Byte
  /-- `DEV_MAX`, 1..65535, less one. -/
  devMaxLess1 : Fin 65535
  /-- `AGENTS`, 1..255, less one. -/
  agentsLess1 : Fin 255
  /-- `CMD_TABLE`; of two rows with one id the first counts. -/
  cmdTable : List CmdRow
  /-- `PRODUCT_TABLE`; of two rows with one id the first counts. -/
  productTable : List ProductRow
  /-- `ACK_TABLE`: valve command id to the param ids that acknowledge it; of two rows with one id the first counts. -/
  ackTable : List (Byte × List (BitVec 7))
  /-- `NOECHO_CMDS`. -/
  noEchoCmds : List Byte
  /-- `PARAM_WAKEUP`, 1..127, less one. -/
  paramWakeupLess1 : Fin 127
  /-- `CMD_THERM_MODE`, 1..255, less one. -/
  cmdThermModeLess1 : Fin 255
  /-- `MODE_GATEWAY`, a binary32 pattern. -/
  modeGateway : BitVec 32
  /-- `TELEMETRY_PERIOD`, in time units. -/
  telemetryPeriod : BitVec 64
  /-- `AUTO_RETRIES`, 1..255, less one. -/
  autoRetriesLess1 : Fin 255
  /-- `TX_REPEAT`. -/
  txRepeat : Byte
  /-- `SLEEP_SHORT`, at least 1 time unit, less one. -/
  sleepShortLess1 : Nat
  /-- `SLEEP_LONG`, at least 1 time unit, less one. -/
  sleepLongLess1 : Nat
  /-- `TIME_UNIT`: the length of one unit of NOW, of the sleeps, of the timeouts and of `TELEMETRY_PERIOD` (10_state.md R37). -/
  timeUnit : Duration
  /-- `DEFAULT_MODE`. -/
  defaultMode : RadioMode
  /-- `BUS_MAP` (20_memory.md R39). -/
  busMap : List BusEntry
  deriving DecidableEq, Repr, Inhabited

/-- The command id of a row of `CMD_TABLE`, never 0 (R73). -/
def CmdRow.id (r : CmdRow) : Byte := BitVec.ofNat 8 (r.idLess1.val + 1)

/-- The param id of a row of `CMD_TABLE`, never 0 (R8). -/
def CmdRow.pid (r : CmdRow) : BitVec 7 := BitVec.ofNat 7 (r.pidLess1.val + 1)

/-- `DEV_MAX`. -/
def Config.devMax (c : Config) : Nat := c.devMaxLess1.val + 1

/-- `AGENTS`. -/
def Config.agents (c : Config) : Nat := c.agentsLess1.val + 1

/-- `PARAM_WAKEUP`. -/
def Config.paramWakeup (c : Config) : BitVec 7 := BitVec.ofNat 7 (c.paramWakeupLess1.val + 1)

/-- `CMD_THERM_MODE`. -/
def Config.cmdThermMode (c : Config) : Byte := BitVec.ofNat 8 (c.cmdThermModeLess1.val + 1)

/-- `AUTO_RETRIES`. -/
def Config.autoRetries (c : Config) : Byte := BitVec.ofNat 8 (c.autoRetriesLess1.val + 1)

/-- `SLEEP_SHORT`. -/
def Config.sleepShort (c : Config) : Nat := c.sleepShortLess1 + 1

/-- `SLEEP_LONG`. -/
def Config.sleepLong (c : Config) : Nat := c.sleepLongLess1 + 1

/-! ## What the environment does -/

/-- The answer of `read_frame(67)` (60_exceptions.md R163). An answer of more than 67 bytes is outside the answer domain:
`Machine.State.readAnswer` takes its first 67. -/
inductive ReadAnswer
  | err
  | ok (bytes : List Byte)
  deriving DecidableEq, Repr, Inhabited

/-- A host write to a register or a buffer byte of a context's own bank (10_state.md R15, R16, R21; 20_memory.md R44). One
constructor for each host-writable register, and one for each host-writable buffer. -/
inductive HostWrite
  | devid (v : BitVec 24)
  | mfr (v : Byte)
  | prod (v : Byte)
  | cmd (v : Byte)
  | data (v : BitVec 32)
  | retries (v : Byte)
  | repeatCount (v : Byte)
  | index (v : BitVec 16)
  | time (v : BitVec 64)
  | timeout (v : BitVec 64)
  | flags (v : BitVec 2)
  | bufSelect (v : BitVec 2)
  | off (v : BitVec 7)
  | len (v : BitVec 7)
  | pip (v : BitVec 16)
  | recLen (v : BitVec 7)
  | txLen (v : BitVec 7)
  | rxLen (v : BitVec 7)
  | recByte (i : Nat) (v : Byte)
  | txByte (i : Nat) (v : Byte)
  | rxByte (i : Nat) (v : Byte)
  deriving DecidableEq, Repr, Inhabited

/-- One choice of the environment: what happens next (20_memory.md R46, 10_state.md R37, 70_reset_and_hazards.md R166). -/
inductive Input
  /-- the host of context `c` writes a register or buffer byte of its bank (R44). -/
  | hostWrite (c : Nat) (w : HostWrite)
  /-- the host of context `c` writes the command word `w` to its CMD register (R55). -/
  | command (c : Nat) (w : Word)
  /-- context `c` takes its next step, if one is enabled (R46, R159). -/
  | proceed (c : Nat)
  /-- NOW advances by `d` time units, and stays at `2^64 - 1` if it would pass it (R37). -/
  | tick (d : Nat)
  /-- the platform asserts reset (R166). -/
  | reset
  deriving DecidableEq, Repr, Inhabited

/-! ## Free values

None has a body: nothing about their values can be proved. `n` counts the inputs or draws made so far, so that two uses are
two independent values. -/

/-- DESIGN CHOICE (log 1), safe: the parameters of the machine that `State.reset` describes. Every rule holds for every value
(00_scope.md R7). -/
opaque Config.params : Config

/-- The environment's next choice where State lines up none (20_memory.md R46, 93_implementation_defined.md I9; log 2). -/
opaque Config.freeInput (n : Nat) : Input

/-- A nonce draw (10_state.md R36, 93_implementation_defined.md I7; log 3). -/
opaque Config.freeNonce (n : Nat) : BitVec 16

/-- An answer of `initialize()`, true for Ok (60_exceptions.md R163, 93_implementation_defined.md I8; log 4). -/
opaque Config.freeInit (n : Nat) : Bool

/-- An answer of `has_frame_waiting()` (60_exceptions.md R163, 93_implementation_defined.md I8; log 4). -/
opaque Config.freeWaiting (n : Nat) : Bool

/-- An answer of `read_frame(67)` (60_exceptions.md R163, 93_implementation_defined.md I8; log 4). -/
opaque Config.freeRead (n : Nat) : ReadAnswer

/-- Byte `i` of a draw of value bytes (41_frame_encoder.md R86, 93_implementation_defined.md I3; log 5). -/
opaque Config.freeValueByte (n i : Nat) : Byte

end Sys2Proof
end

