-- ==== Sys2Proof/Syntax.lean ====
section
/-! DEFINITION. The block's operations: one constructor for each row of the opcode map (30_encoding.md R56). A command word
carries no operand (R54), so no constructor has one. -/

namespace Sys2Proof

/-- The 21 operations of 30_encoding.md R56. -/
inductive Instr
  /-- `NOP`, 45_radio_gate.md R150. -/
  | nop
  /-- `CRC16`, 40_crc_cipher.md R82. -/
  | crc16
  /-- `CIPHER`, 40_crc_cipher.md R83. -/
  | cipher
  /-- `ENC_RECORD`, 41_frame_encoder.md R90. -/
  | encRecord
  /-- `BUILD_FRAME`, 41_frame_encoder.md R91. -/
  | buildFrame
  /-- `DECODE_FRAME`, 42_frame_decoder.md R107. -/
  | decodeFrame
  /-- `TX_FRAME`, 41_frame_encoder.md R92. -/
  | txFrame
  /-- `RB_PUSH`, 43_ring_buffer.md R114. -/
  | rbPush
  /-- `RB_POP`, 43_ring_buffer.md R115. -/
  | rbPop
  /-- `RB_PEEK`, 43_ring_buffer.md R116. -/
  | rbPeek
  /-- `RB_DRAIN`, 43_ring_buffer.md R117. -/
  | rbDrain
  /-- `DEV_CREATE`, 44_retry_sequencer.md R123. -/
  | devCreate
  /-- `DEV_QUERY`, 44_retry_sequencer.md R124. -/
  | devQuery
  /-- `DEV_LIST`, 44_retry_sequencer.md R125. -/
  | devList
  /-- `CACHE_CMD`, 44_retry_sequencer.md R128. -/
  | cacheCmd
  /-- `TRY_SEND`, 44_retry_sequencer.md R130. -/
  | trySend
  /-- `POST_PROCESS`, 44_retry_sequencer.md R136. -/
  | postProcess
  /-- `RX_POLL`, 44_retry_sequencer.md R137. -/
  | rxPoll
  /-- `GATE_ACQUIRE`, 45_radio_gate.md R147. -/
  | gateAcquire
  /-- `GATE_RELEASE`, 45_radio_gate.md R148. -/
  | gateRelease
  /-- `SHUTDOWN`, 45_radio_gate.md R149. -/
  | shutdown
  deriving DecidableEq, Repr

end Sys2Proof
end

