-- ==== Sys2Proof/WellFormed.lean ====
section
/-! DEFINITION. What is well formed: instructions (30_encoding.md R54) and configurations (00_scope.md R7, R8). -/

namespace Sys2Proof

/-- Every operation is well formed: a command word carries no operand that could be ill formed (30_encoding.md R54, R58). -/
def Instr.wf : Instr → Bool
  | .nop | .crc16 | .cipher | .encRecord | .buildFrame | .decodeFrame | .txFrame
  | .rbPush | .rbPop | .rbPeek | .rbDrain | .devCreate | .devQuery | .devList | .cacheCmd | .trySend | .postProcess
  | .rxPoll | .gateAcquire | .gateRelease | .shutdown => true

/-! ## Configurations -/

/-- A row of `CMD_TABLE` as numbers (00_scope.md R8, 30_encoding.md R73). -/
structure RawCmdRow where
  id : Nat
  pid : Nat
  type : Nat
  len : Nat
  deriving DecidableEq, Repr

/-- A row of `PRODUCT_TABLE` as its parts (30_encoding.md R72). -/
structure RawProductRow where
  prod : Byte
  cls : ControlClass
  ext : Extension
  wakeGated : Bool
  deriving DecidableEq, Repr

/-- The open parameters as 00_scope.md R7 lists them, and BUS_MAP (20_memory.md R39), before any check. -/
structure RawConfig where
  cryptKey : Byte
  mfrDefault : Byte
  devMax : Nat
  agents : Nat
  cmdTable : List RawCmdRow
  productTable : List RawProductRow
  ackTable : List (Byte × List (BitVec 7))
  noEchoCmds : List Byte
  paramWakeup : Nat
  cmdThermMode : Nat
  modeGateway : BitVec 32
  telemetryPeriod : BitVec 64
  autoRetries : Nat
  txRepeat : Byte
  sleepShort : Nat
  sleepLong : Nat
  timeUnit : Duration
  defaultMode : RadioMode
  busMap : List BusEntry
  deriving DecidableEq, Repr

/-- Why a configuration is refused (93_implementation_defined.md I5, 00_scope.md R7, R8). -/
inductive ConfigError
  /-- DEV_MAX outside 1..65535 (R7). -/
  | devMax
  /-- AGENTS outside 1..255 (R7). -/
  | agents
  /-- a CMD_TABLE command id outside 1..255 (R8). -/
  | commandId
  /-- a CMD_TABLE param id outside 1..127 (R8). -/
  | paramId
  /-- a CMD_TABLE type code that is no integer row of 30_encoding.md R70 (R8). -/
  | commandType
  /-- a CMD_TABLE length outside 0..15 (R8). -/
  | commandLen
  /-- a Valve or Thermostat product whose class is not SmallWindow (R8). -/
  | productClass
  /-- PARAM_WAKEUP outside 1..127 (R8). -/
  | paramWakeup
  /-- CMD_THERM_MODE outside 1..255 (92_eei_decisions.md, open parameters). -/
  | cmdThermMode
  /-- AUTO_RETRIES outside 1..255 (R7). -/
  | autoRetries
  /-- SLEEP_SHORT or SLEEP_LONG below 1 (R7). -/
  | sleep
  deriving DecidableEq, Repr

/-- A number of the range `1 .. n`, less one. -/
def lessOne (n : Nat) (e : ConfigError) (v : Nat) : Except ConfigError (Fin n) :=
  if h : v - 1 < n ∧ 1 ≤ v then .ok ⟨v - 1, h.1⟩ else .error e

/-- The integer type of a type code (30_encoding.md R70), none for CHAR and the reserved codes (R8). -/
def IntType.ofCode : Nat → Except ConfigError IntType
  | 0x0 => .ok .uint
  | 0x1 => .ok .uintBP4
  | 0x2 => .ok .uintBP8
  | 0x3 => .ok .uintBP12
  | 0x4 => .ok .uintBP16
  | 0x5 => .ok .uintBP20
  | 0x6 => .ok .uintBP24
  | 0x8 => .ok .sint
  | 0x9 => .ok .sintBP8
  | 0xA => .ok .sintBP16
  | 0xB => .ok .sintBP24
  | _ => .error .commandType

/-- A checked row of `CMD_TABLE` (00_scope.md R8). -/
def RawCmdRow.check (r : RawCmdRow) : Except ConfigError CmdRow :=
  match lessOne 255 .commandId r.id, lessOne 127 .paramId r.pid, IntType.ofCode r.type with
  | .error e, _, _ => .error e
  | _, .error e, _ => .error e
  | _, _, .error e => .error e
  | .ok i, .ok p, .ok t =>
    if r.len ≤ 15 then .ok { idLess1 := i, pidLess1 := p, type := t, len := BitVec.ofNat 4 r.len } else .error .commandLen

/-- A checked row of `PRODUCT_TABLE` (00_scope.md R8): an extension needs class SmallWindow. -/
def RawProductRow.check (r : RawProductRow) : Except ConfigError ProductRow :=
  match r.ext, r.cls with
  | .none, c => .ok { prod := r.prod, kind := .plain c, wakeGated := r.wakeGated }
  | .valve, .smallWindow => .ok { prod := r.prod, kind := .valve, wakeGated := r.wakeGated }
  | .thermostat, .smallWindow => .ok { prod := r.prod, kind := .thermostat, wakeGated := r.wakeGated }
  | .valve, .none | .valve, .always | .thermostat, .none | .thermostat, .always => .error .productClass

/-- All rows checked, or the first error. -/
def checkRows {α β : Type} (f : α → Except ConfigError β) : List α → Except ConfigError (List β)
  | [] => .ok []
  | a :: as =>
    match f a with
    | .error e => .error e
    | .ok b =>
      match checkRows f as with
      | .error e => .error e
      | .ok bs => .ok (b :: bs)

/-- The configuration a set of numbers describes, or the reason it is refused (00_scope.md R8: a model should refuse any other
configuration; 93_implementation_defined.md I5). -/
def RawConfig.check (r : RawConfig) : Except ConfigError Config := do
  let devMax ← lessOne 65535 .devMax r.devMax
  let agents ← lessOne 255 .agents r.agents
  let cmds ← checkRows RawCmdRow.check r.cmdTable
  let prods ← checkRows RawProductRow.check r.productTable
  let wake ← lessOne 127 .paramWakeup r.paramWakeup
  let therm ← lessOne 255 .cmdThermMode r.cmdThermMode
  let auto ← lessOne 255 .autoRetries r.autoRetries
  if 1 ≤ r.sleepShort ∧ 1 ≤ r.sleepLong then
    .ok { cryptKey := r.cryptKey, mfrDefault := r.mfrDefault, devMaxLess1 := devMax, agentsLess1 := agents,
          cmdTable := cmds, productTable := prods, ackTable := r.ackTable, noEchoCmds := r.noEchoCmds,
          paramWakeupLess1 := wake, cmdThermModeLess1 := therm, modeGateway := r.modeGateway,
          telemetryPeriod := r.telemetryPeriod, autoRetriesLess1 := auto, txRepeat := r.txRepeat,
          sleepShortLess1 := r.sleepShort - 1, sleepLongLess1 := r.sleepLong - 1, timeUnit := r.timeUnit,
          defaultMode := r.defaultMode, busMap := r.busMap }
  else .error .sleep

end Sys2Proof
end

