-- ==== Sys2Proof/Machine/State.lean ====
section
/-! DEFINITION. The block's state (10_state.md R12 to R38) as plain data, the reasons a step can stop, and the state after
reset. -/

namespace Sys2Proof.Machine

/-! ## Why a step can stop -/

/-- Why the machine stops with a fault. -/
inductive Fault
  /-- A host write to CMD while that context's STATUS.BUSY = 1 (60_exceptions.md R158, 93_implementation_defined.md I2).
  Raised by the fetch of a command word. Safe: no rule says what follows. -/
  | commandWhileBusy
  /-- A host access, or a step, of a context number that is not one of 0 .. AGENTS-1 (10_state.md R14). Raised by the fetch of
  an input. Safe: there is no such context, so no hardware does this. -/
  | noSuchContext
  /-- A host write to a buffer byte past the buffer's end (10_state.md R16, 20_memory.md R39). Raised by the fetch of a host
  write. Safe: there is no such byte. -/
  | noSuchByte
  deriving DecidableEq, Repr

/-- Why the machine has no meaning for what it is asked. -/
inductive Refusal
  /-- An operation that has no meaning yet. Raised by `exec`'s refused arms only. Safe: it stops. -/
  | notModelled (mnemonic : String)
  /-- A configuration that breaks 00_scope.md R7 or R8 (93_implementation_defined.md I5). Raised by `boot`. Safe: the block's
  behaviour is defined only for configurations that meet R8. -/
  | badConfig (e : ConfigError)
  deriving DecidableEq, Repr

/-! ## Names -/

/-- The status codes of 60_exceptions.md R152; codes 15 to 255 are never written. -/
inductive Code
  | ok
  | frameLen
  | crcMismatch
  | unknownCommand
  | deviceNotCacheable
  | cancelUnknownDevice
  | lockUnavailable
  | capacityExceeded
  | empty
  | noMessage
  | notLockOwner
  | illegalOp
  | badOperand
  | recordBufferFull
  | notFound
  deriving DecidableEq, Repr

/-- `RXS`, the multi-step state of a context (10_state.md R22). -/
inductive PollState
  | off
  | gateWait
  | draining
  | decoding
  | inject
  | idle
  deriving DecidableEq, Repr

/-- One port event: a call of the transceiver collaborator with its arguments and its answer (60_exceptions.md R163). -/
inductive PortEvent
  /-- `initialize()`, with the answer: true for Ok. -/
  | initCall (ok : Bool)
  /-- `set_mode(m)`. -/
  | setMode (m : RadioMode)
  /-- `transmit(p, n, rep)`. -/
  | transmit (payload : List Byte) (len : Nat) (rep : Byte)
  /-- `has_frame_waiting()`, with the answer. -/
  | hasFrameWaiting (waiting : Bool)
  /-- `read_frame(max_len)`, with the answer. -/
  | readFrame (maxLen : Nat) (answer : ReadAnswer)
  /-- `reset()`: in the contract, and never called (45_radio_gate.md R151). -/
  | reset
  /-- `shutdown()`. -/
  | shutdown
  deriving DecidableEq, Repr

/-! ## Memory -/

/-- The bytes of one named memory (20_memory.md R39): cells (index, byte), indexes strictly rising, no byte 0 listed. An
unlisted byte reads 0, the reset content of every buffer, slot and new frame (10_state.md R16, R23, R38; 44_retry_sequencer.md
R121). -/
abbrev Memory := List Host.Cell

/-! ## Per-context state -/

/-- The argument registers (10_state.md R15). -/
structure Args where
  devid : BitVec 24
  mfr : Byte
  prod : Byte
  cmd : Byte
  data : BitVec 32
  retries : Byte
  repeatCount : Byte
  index : BitVec 16
  time : BitVec 64
  timeout : BitVec 64
  /-- `A_FLAGS`: bit 0 joined, bit 1 seen. -/
  flags : BitVec 2
  /-- `A_BUF`. -/
  bufSelect : BitVec 2
  off : BitVec 7
  len : BitVec 7
  pip : BitVec 16
  deriving DecidableEq, Repr

/-- The device result registers `R_FOUND` to `R_TLAST` (10_state.md R17; `R_dev` of 30_encoding.md R56). -/
structure DevReport where
  found : Bool
  devid : BitVec 24
  mfr : Byte
  prod : Byte
  cls : BitVec 2
  ext : BitVec 2
  joined : Bool
  seen : Bool
  hasCc : Bool
  pending : Bool
  cmdId : Byte
  data : BitVec 32
  retries : Byte
  active : Bool
  tMode : BitVec 32
  tModeKnown : Bool
  tLast : BitVec 64
  deriving DecidableEq, Repr

/-- The post-processing result registers (10_state.md R17; `R_post` of 30_encoding.md R56). -/
structure PostReport where
  hasWake : Bool
  acked : Bool
  assumed : Bool
  assumedCmd : Byte
  assumedData : BitVec 32
  autoCached : Bool
  deriving DecidableEq, Repr

/-- One decoded record `DEC_REC[k]` (10_state.md R18). -/
structure DecRec where
  pid : BitVec 7
  cf : Bool
  type : BitVec 4
  len : BitVec 4
  off : BitVec 7
  /-- 15 bytes; those at index ≥ LEN are 0. -/
  raw : List Byte
  /-- two's complement. -/
  ival : BitVec 128
  bp : BitVec 5
  signed : Bool
  fvalid : Bool
  deriving DecidableEq, Repr

/-- The decode output registers (10_state.md R18). -/
structure DecOut where
  valid : Bool
  l : Byte
  mfr : Byte
  prod : Byte
  pip : BitVec 16
  devid : BitVec 24
  crc : BitVec 16
  nrec : BitVec 5
  /-- 28 records. -/
  recs : List DecRec
  deriving DecidableEq, Repr

/-- The receive-poll and wait state (10_state.md R22). -/
structure Poll where
  rxs : PollState
  deadline : BitVec 64
  wake : BitVec 64
  zero : Bool
  owned : Bool
  dev : BitVec 16
  deriving DecidableEq, Repr

/-- The register bank of one context (10_state.md R14 to R22). `CMD` holds no state (R20). -/
structure Ctx where
  args : Args
  recBuf : Memory
  txBuf : Memory
  rxBuf : Memory
  plainBuf : Memory
  recLen : BitVec 7
  txLen : BitVec 7
  rxLen : BitVec 7
  rCrc : BitVec 16
  rPip : BitVec 16
  rTs : BitVec 64
  rSent : Bool
  rAlready : Bool
  rCreated : Bool
  dev : DevReport
  post : PostReport
  dec : DecOut
  /-- `STATUS.CODE` (R19). -/
  code : Code
  /-- `STATUS.BUSY` (R19). -/
  busy : Bool
  poll : Poll
  deriving DecidableEq, Repr

/-! ## Shared state -/

/-- A ring buffer slot (10_state.md R23). -/
structure Slot where
  bytes : Memory
  len : BitVec 7
  ts : BitVec 64
  deriving DecidableEq, Repr

/-- The ring buffer (10_state.md R23, R24): five slots, `RB_HEAD`, `RB_TAIL`, `RB_COUNT` in their ranges. -/
structure Ring where
  slots : List Slot
  head : Fin 5
  tail : Fin 5
  count : Fin 6
  deriving DecidableEq, Repr

/-- The `CachedCommand` of a device entry (10_state.md R25). -/
structure CachedCommand where
  pending : Bool
  cmd : Byte
  data : BitVec 32
  retries : Byte
  active : Bool
  frame : Memory
  flen : BitVec 7
  deriving DecidableEq, Repr

/-- The thermostat fields of a device entry (10_state.md R25). -/
structure Thermostat where
  mode : BitVec 32
  modeKnown : Bool
  lastTel : BitVec 64
  deriving DecidableEq, Repr

/-- A valid device entry (10_state.md R25). -/
structure Dev where
  devid : BitVec 24
  mfr : Byte
  prod : Byte
  cls : ControlClass
  ext : Extension
  wakeGated : Bool
  joined : Bool
  seen : Bool
  hasCc : Bool
  cc : CachedCommand
  th : Thermostat
  deriving DecidableEq, Repr

/-- The gate (10_state.md R30). -/
structure Gate where
  init : Bool
  held : Bool
  owner : BitVec 8
  deriving DecidableEq, Repr

/-! ## The environment's choices -/

/-- What the environment has lined up, oldest first, and how many inputs and draws it has made (MODEL's own, log 2 to 5). An
empty list means that the next choice of its kind is a free value. -/
structure Env where
  inputs : List Input
  inputNo : Nat
  nonces : List (BitVec 16)
  initAnswers : List Bool
  waitAnswers : List Bool
  readAnswers : List ReadAnswer
  valueDraws : List (List Byte)
  drawNo : Nat
  deriving DecidableEq, Repr

/-! ## The state -/

/-- The whole state: every context's bank, the shared state, the time input, the configuration and the environment's choices.
-/
structure State where
  /-- the open parameters; no step changes them (70_reset_and_hazards.md R168). MODEL's own (log 1). -/
  cfg : Config
  /-- the contexts' banks, context 0 first; AGENTS of them (R14). -/
  ctxs : List Ctx
  /-- the context whose step is taken: `C` of 00_scope.md R10. MODEL's own (log 7). -/
  cur : Nat
  ring : Ring
  /-- the valid entries `DEV[0 .. DEV_COUNT)`, in creation order (R25). -/
  devs : List Dev
  cntActive : BitVec 16
  cntPrecached : BitVec 16
  gate : Gate
  /-- `G_FATAL` (R31). -/
  fatal : Bool
  /-- `G_EVENTS`, oldest first (R32). -/
  events : List PortEvent
  /-- `NOW` (R37). -/
  now : BitVec 64
  env : Env
  deriving DecidableEq, Repr

/-! ## Reset (10_state.md R38, 70_reset_and_hazards.md R166, R167) -/

/-- A decoded record with every field 0 (R38). -/
def DecRec.reset : DecRec :=
  { pid := 0, cf := false, type := 0, len := 0, off := 0, raw := List.replicate 15 0, ival := 0, bp := 0, signed := false,
    fvalid := false }

/-- The device result registers at 0 (R38). -/
def DevReport.reset : DevReport :=
  { found := false, devid := 0, mfr := 0, prod := 0, cls := 0, ext := 0, joined := false, seen := false, hasCc := false,
    pending := false, cmdId := 0, data := 0, retries := 0, active := false, tMode := 0, tModeKnown := false, tLast := 0 }

/-- The post-processing registers at 0 (R38). -/
def PostReport.reset : PostReport :=
  { hasWake := false, acked := false, assumed := false, assumedCmd := 0, assumedData := 0, autoCached := false }

/-- A context's bank after reset (R38): every register, length and byte 0, STATUS 0, RXS OFF. -/
def Ctx.reset : Ctx :=
  { args := { devid := 0, mfr := 0, prod := 0, cmd := 0, data := 0, retries := 0, repeatCount := 0, index := 0, time := 0,
              timeout := 0, flags := 0, bufSelect := 0, off := 0, len := 0, pip := 0 },
    recBuf := [], txBuf := [], rxBuf := [], plainBuf := [], recLen := 0, txLen := 0, rxLen := 0,
    rCrc := 0, rPip := 0, rTs := 0, rSent := false, rAlready := false, rCreated := false,
    dev := DevReport.reset, post := PostReport.reset,
    dec := { valid := false, l := 0, mfr := 0, prod := 0, pip := 0, devid := 0, crc := 0, nrec := 0,
             recs := List.replicate 28 DecRec.reset },
    code := .ok, busy := false,
    poll := { rxs := .off, deadline := 0, wake := 0, zero := false, owned := false, dev := 0 } }

/-- A ring slot after reset (R23). -/
def Slot.reset : Slot := { bytes := [], len := 0, ts := 0 }

/-- The ring buffer after reset: empty (R23, R24). -/
def Ring.reset : Ring := { slots := List.replicate 5 Slot.reset, head := 0, tail := 0, count := 0 }

/-- Nothing lined up, nothing drawn (DESIGN CHOICE, log 2, 3). -/
def Env.reset : Env :=
  { inputs := [], inputNo := 0, nonces := [], initAnswers := [], waitAnswers := [], readAnswers := [], valueDraws := [],
    drawNo := 0 }

/-- The machine with configuration `c` right after reset (10_state.md R38, 70_reset_and_hazards.md R167): AGENTS idle contexts,
an empty ring buffer and registry, the gate free and the transceiver not initialised, no port event. NOW = 0 is the model's
choice (DESIGN CHOICE, log 6). -/
def State.resetWith (c : Config) : State :=
  { cfg := c, ctxs := List.replicate c.agents Ctx.reset, cur := 0, ring := Ring.reset, devs := [], cntActive := 0,
    cntPrecached := 0, gate := { init := false, held := false, owner := 0 }, fatal := false, events := [], now := 0,
    env := Env.reset }

/-- The machine right after reset, with the open parameters at the unknown constant `Config.params` (00_scope.md R7; log 1). -/
def State.reset : State := State.resetWith Config.params

end Sys2Proof.Machine
end

