-- ==== Sys2Proof/Machine/Flags.lean ====
section
/-! DEFINITION. The block's one condition register, STATUS (10_state.md R19): the numbers of its codes (60_exceptions.md R152)
and the word a host reads. No operation reads STATUS, and the block has no other flag (R19). -/

namespace Sys2Proof.Machine

/-- The number of a status code (60_exceptions.md R152). -/
def Code.num : Code → BitVec 8
  | .ok => 0
  | .frameLen => 1
  | .crcMismatch => 2
  | .unknownCommand => 3
  | .deviceNotCacheable => 4
  | .cancelUnknownDevice => 5
  | .lockUnavailable => 6
  | .capacityExceeded => 7
  | .empty => 8
  | .noMessage => 9
  | .notLockOwner => 10
  | .illegalOp => 11
  | .badOperand => 12
  | .recordBufferFull => 13
  | .notFound => 14

/-- STATUS as a host reads it (10_state.md R19): CODE in bits [7:0], BUSY in bit [8], bits [31:9] 0. -/
def Ctx.status (c : Ctx) : BitVec 32 := (BitVec.ofBool c.busy ++ c.code.num).setWidth 32

/-- The 2-bit code of a control class (10_state.md R25). -/
def classCode : ControlClass → BitVec 2
  | .none => 0
  | .always => 1
  | .smallWindow => 2

/-- The 2-bit code of an extension (10_state.md R25). -/
def extCode : Extension → BitVec 2
  | .none => 0
  | .valve => 1
  | .thermostat => 2

end Sys2Proof.Machine
end

