-- ==== Sys2Proof/Machine/Operands.lean ====
section
/-! DEFINITION. Operand forms: the bytes of a named memory, the buffer an operand selects, big-endian values (20_memory.md R41),
the type nibble (30_encoding.md R70), the binary32 data value (30_encoding.md R58, 41_frame_encoder.md R84 to R86), and the
configuration tables (30_encoding.md R72, R73). -/

namespace Sys2Proof.Machine

/-! ## Bytes of a memory (00_scope.md R10 MemRead, MemWrite; 20_memory.md R43) -/

/-- The byte at index `a`; an unlisted byte is 0. -/
def Memory.read : Memory → Nat → Byte
  | [], _ => 0
  | (b, x) :: m, a => if a = b then x else Memory.read m a

/-- `m` with the byte at index `a` set to `v`, in canonical form: writing 0 removes the cell. -/
def Memory.write : Memory → Nat → Byte → Memory
  | [], a, v => if v = 0 then [] else [(a, v)]
  | (b, x) :: m, a, v =>
    if a < b then (if v = 0 then (b, x) :: m else (a, v) :: (b, x) :: m)
    else if a = b then (if v = 0 then m else (a, v) :: m)
    else (b, x) :: Memory.write m a v

/-- `MemRead(m, i, n)`: the n bytes `m[i .. i+n)` (R10). -/
def Memory.readRange (m : Memory) (i : Nat) : Nat → List Byte
  | 0 => []
  | n + 1 => Memory.read m i :: Memory.readRange m (i + 1) n

/-- `MemWrite(m, i, |bs|, bs)` (R10). -/
def Memory.writeRange (m : Memory) (i : Nat) : List Byte → Memory
  | [] => m
  | b :: bs => Memory.writeRange (Memory.write m i b) (i + 1) bs

/-- The memory whose first bytes are `bs` and whose others are 0. -/
def Memory.ofBytes (bs : List Byte) : Memory := Memory.writeRange [] 0 bs

/-- The canonical form of a memory of `size` bytes: indexes strictly rising and below `size`, no byte 0 listed. -/
def Memory.wf (size : Nat) : Memory → Bool
  | [] => true
  | (a, v) :: m => decide (a < size) && decide (v ≠ 0) && m.all (fun c => decide (a < c.1)) && Memory.wf size m

/-! ## The buffer operand of CRC16 and CIPHER (10_state.md R15, R16; 40_crc_cipher.md section 3) -/

/-- REC_MAX (00_scope.md R7). -/
def recMax : Nat := 56

/-- FRAME_MAX (00_scope.md R7). -/
def frameMax : Nat := 67

/-- `size(b)`: the byte count of the buffer that code `b` selects. -/
def bufSize (b : BitVec 2) : Nat := if b = 0 then recMax else frameMax

/-- `sel(b)`: the buffer that code `b` selects: 0 REC_BUF, 1 TX_BUF, 2 RX_BUF, 3 PLAIN_BUF. -/
def Ctx.buf (c : Ctx) (b : BitVec 2) : Memory :=
  if b = 0 then c.recBuf else if b = 1 then c.txBuf else if b = 2 then c.rxBuf else c.plainBuf

/-- The bank with the buffer that code `b` selects replaced by `m`. -/
def Ctx.setBuf (c : Ctx) (b : BitVec 2) (m : Memory) : Ctx :=
  if b = 0 then { c with recBuf := m } else if b = 1 then { c with txBuf := m }
  else if b = 2 then { c with rxBuf := m } else { c with plainBuf := m }

/-! ## Big-endian values (00_scope.md R9, 20_memory.md R41) -/

/-- `BE(bs)`: the unsigned big-endian value of bytes. -/
def beNat (bs : List Byte) : Nat := bs.foldl (fun acc b => acc * 256 + b.toNat) 0

/-- The `n` bytes of `v mod 2^(8 n)`, most significant first (41_frame_encoder.md R85). -/
def beBytes : Nat → Nat → List Byte
  | 0, _ => []
  | n + 1, v => BitVec.ofNat 8 (v / 256 ^ n) :: beBytes n v

/-- Two bytes of a 16-bit value, high byte first (30_encoding.md R62). -/
def be16 (v : BitVec 16) : List Byte := [v.extractLsb' 8 8, v.extractLsb' 0 8]

/-- Three bytes of a 24-bit value, high byte first (30_encoding.md R62). -/
def be24 (v : BitVec 24) : List Byte := [v.extractLsb' 16 8, v.extractLsb' 8 8, v.extractLsb' 0 8]

/-! ## The type nibble (30_encoding.md R70, R71) -/

/-- The binary point of a type code; 0 for CHAR and the reserved codes. -/
def typeBp (t : BitVec 4) : Nat :=
  match t.toNat with
  | 0x1 => 4
  | 0x2 => 8
  | 0x3 => 12
  | 0x4 => 16
  | 0x5 => 20
  | 0x6 => 24
  | 0x9 => 8
  | 0xA => 16
  | 0xB => 24
  | _ => 0

/-- The signed type codes: 0x8 to 0xB. -/
def typeSigned (t : BitVec 4) : Bool := decide (8 ≤ t.toNat) && decide (t.toNat ≤ 11)

/-- The reserved type codes: 0xC to 0xF (R71). -/
def typeReserved (t : BitVec 4) : Bool := decide (12 ≤ t.toNat)

/-- The type code of an integer type. -/
def intTypeCode : IntType → BitVec 4
  | .uint => 0x0
  | .uintBP4 => 0x1
  | .uintBP8 => 0x2
  | .uintBP12 => 0x3
  | .uintBP16 => 0x4
  | .uintBP20 => 0x5
  | .uintBP24 => 0x6
  | .sint => 0x8
  | .sintBP8 => 0x9
  | .sintBP16 => 0xA
  | .sintBP24 => 0xB

/-! ## Command data: IEEE 754 binary32 (30_encoding.md R58) -/

/-- A NaN or an infinity: the biased exponent is all ones. -/
def dataIsNonFinite (d : BitVec 32) : Bool := decide ((d.extractLsb' 23 8).toNat = 255)

/-- The magnitude's integer significand: with the hidden bit unless the number is subnormal. -/
def dataSignificand (d : BitVec 32) : Nat :=
  let frac := (d.extractLsb' 0 23).toNat
  if (d.extractLsb' 23 8).toNat = 0 then frac else 2 ^ 23 + frac

/-- The biased exponent that scales the significand: the value is `± significand · 2^(e - 150)`. -/
def dataExponent (d : BitVec 32) : Nat :=
  let e := (d.extractLsb' 23 8).toNat
  if e = 0 then 1 else e

/-- `n = trunc(x · 2^BP)` for the value x of a finite `d`, rounding toward zero (41_frame_encoder.md R84). -/
def scaledData (d : BitVec 32) (bp : Nat) : Int :=
  let mag : Nat := dataSignificand d * 2 ^ (dataExponent d + bp) / 2 ^ 150
  if d.getLsbD 31 then -(mag : Int) else (mag : Int)

/-- `inRange(n, len, signed)` (41_frame_encoder.md R85), for `len > 0`. -/
def inRange (n : Int) (len : Nat) (signed : Bool) : Bool :=
  if signed then decide (-(2 ^ (8 * len - 1) : Int) ≤ n) && decide (n < (2 ^ (8 * len - 1) : Int))
  else decide (0 ≤ n) && decide (n < (2 ^ (8 * len) : Int))

/-! ## The configuration tables -/

/-- `CMD_TABLE[cmd]` (30_encoding.md R73), none for an unknown command; id 0 is never in the table. -/
def cmdLookup (c : Config) (cmd : Byte) : Option CmdRow := c.cmdTable.find? (fun r => r.id == cmd)

/-- The class of a product's kind (30_encoding.md R72, 00_scope.md R8). -/
def kindClass : ProductKind → ControlClass
  | .plain c => c
  | .valve => .smallWindow
  | .thermostat => .smallWindow

/-- The extension of a product's kind (30_encoding.md R72). -/
def kindExt : ProductKind → Extension
  | .plain _ => .none
  | .valve => .valve
  | .thermostat => .thermostat

/-- What `productInfo` returns (44_retry_sequencer.md R120). -/
structure ProductInfo where
  cls : ControlClass
  ext : Extension
  wakeGated : Bool
  deriving DecidableEq, Repr

/-- `productInfo(prod)` (44_retry_sequencer.md R120): the sentinel (None, none, 0) for a product not in the table. -/
def productInfo (c : Config) (prod : Byte) : ProductInfo :=
  match c.productTable.find? (fun r => r.prod == prod) with
  | some r => { cls := kindClass r.kind, ext := kindExt r.kind, wakeGated := r.wakeGated }
  | none => { cls := .none, ext := .none, wakeGated := false }

/-- `pid ∈ ACK_TABLE[cmd]` (44_retry_sequencer.md R134); a command without an entry is acknowledged by no report. -/
def acknowledges (c : Config) (cmd : Byte) (pid : BitVec 7) : Bool :=
  match c.ackTable.find? (fun r => r.1 == cmd) with
  | some r => r.2.contains pid
  | none => false

/-- `min(a + b, 2^64 - 1)` (60_exceptions.md R162). -/
def satAdd (a : BitVec 64) (b : Nat) : BitVec 64 := BitVec.ofNat 64 (min (a.toNat + b) (2 ^ 64 - 1))

end Sys2Proof.Machine
end

