-- ==== Sys2Proof/Machine/Ops.lean ====
section
/-! DEFINITION. The shared operations: the issuing context's bank (00_scope.md R10), how an operation ends and how it reports an
error (60_exceptions.md R153), the draws and the port (10_state.md R36, 60_exceptions.md R163), and the device table. -/

namespace Sys2Proof.Machine

/-! ## The issuing context (00_scope.md R10) -/

/-- The bank of the context whose step is taken. -/
def State.ctx (s : State) : Ctx := s.ctxs.getD s.cur Ctx.reset

/-- That bank replaced. -/
def State.setCtx (s : State) (c : Ctx) : State := { s with ctxs := s.ctxs.set s.cur c }

/-! ## The end of an operation

Reporting an error is the block's whole exception model: it is not a trap (60_exceptions.md R153). Nothing is saved, no mode
changes, control goes nowhere, so there is nothing to return from (R160). -/

/-- `finish(code)` (00_scope.md R10): CODE is written and BUSY cleared. -/
def State.finish (s : State) (code : Code) : State := s.setCtx { s.ctx with code := code, busy := false }

/-- `raise E` (00_scope.md R10, 60_exceptions.md R153): the operation ends with the error in CODE, and nothing else happens. -/
def State.raise (s : State) (e : Code) : State := s.finish e

/-- `endPoll(code)` (44_retry_sequencer.md R137): RXS becomes OFF, and the operation finishes. -/
def State.endPoll (s : State) (code : Code) : State :=
  (s.setCtx { s.ctx with poll := { s.ctx.poll with rxs := .off } }).finish code

/-- RXS of the issuing context written. -/
def State.setRxs (s : State) (p : PollState) : State :=
  s.setCtx { s.ctx with poll := { s.ctx.poll with rxs := p } }

/-! ## The gate's owner -/

/-- `G.G_HELD = 1 and G.G_OWNER = C`: the issuing context holds the gate. -/
def State.holdsGate (s : State) : Bool := s.gate.held && (s.gate.owner == BitVec.ofNat 8 s.cur)

/-- `G.G_HELD = 1 and G.G_OWNER != C`: another context holds the gate. -/
def State.otherHolds (s : State) : Bool := s.gate.held && !(s.gate.owner == BitVec.ofNat 8 s.cur)

/-! ## Draws

Each draw reads the answer that the environment has lined up, or, where it has lined up none, a free value. -/

/-- `draw Nonce16()` (10_state.md R36): the value. -/
def State.nonce (s : State) : BitVec 16 :=
  match s.env.nonces with
  | n :: _ => n
  | [] => Config.freeNonce s.env.drawNo

/-- The state after a nonce draw. -/
def State.afterNonce (s : State) : State :=
  { s with env := { s.env with nonces := s.env.nonces.tail, drawNo := s.env.drawNo + 1 } }

/-- `draw Bytes(n)` (41_frame_encoder.md R86, R87): the bytes. -/
def State.valueBytes (s : State) (n : Nat) : List Byte :=
  (List.range n).map (fun i => (s.env.valueDraws.headD []).getD i (Config.freeValueByte s.env.drawNo i))

/-- The state after a draw of value bytes. -/
def State.afterValueBytes (s : State) : State :=
  { s with env := { s.env with valueDraws := s.env.valueDraws.tail, drawNo := s.env.drawNo + 1 } }

/-! ## The transceiver port (60_exceptions.md R163) -/

/-- The port event log grows at its end (10_state.md R32). -/
def State.logEvent (s : State) (e : PortEvent) : State := { s with events := s.events ++ [e] }

/-- The answer of `initialize()`: true for Ok. -/
def State.initAnswer (s : State) : Bool :=
  match s.env.initAnswers with
  | a :: _ => a
  | [] => Config.freeInit s.env.drawNo

/-- `T.initCall()`: the state after it. -/
def State.afterInit (s : State) : State :=
  { s with events := s.events ++ [.initCall s.initAnswer],
           env := { s.env with initAnswers := s.env.initAnswers.tail, drawNo := s.env.drawNo + 1 } }

/-- The answer of `has_frame_waiting()`. -/
def State.waitAnswer (s : State) : Bool :=
  match s.env.waitAnswers with
  | a :: _ => a
  | [] => Config.freeWaiting s.env.drawNo

/-- `T.has_frame_waiting()`: the state after it. -/
def State.afterWait (s : State) : State :=
  { s with events := s.events ++ [.hasFrameWaiting s.waitAnswer],
           env := { s.env with waitAnswers := s.env.waitAnswers.tail, drawNo := s.env.drawNo + 1 } }

/-- An answer of `read_frame(67)` in its domain: at most 67 bytes (60_exceptions.md R163, log 4). -/
def clipAnswer : ReadAnswer → ReadAnswer
  | .err => .err
  | .ok bs => .ok (bs.take frameMax)

/-- The answer of `read_frame(67)`. -/
def State.readAnswer (s : State) : ReadAnswer :=
  clipAnswer (match s.env.readAnswers with
    | a :: _ => a
    | [] => Config.freeRead s.env.drawNo)

/-- `T.read_frame(67)`: the state after it. -/
def State.afterRead (s : State) : State :=
  { s with events := s.events ++ [.readFrame frameMax s.readAnswer],
           env := { s.env with readAnswers := s.env.readAnswers.tail, drawNo := s.env.drawNo + 1 } }

/-- `T.transmit(p, n, rep)`, with n = |p|: one port event and no answer. -/
def State.transmit (s : State) (p : List Byte) (rep : Byte) : State := s.logEvent (.transmit p p.length rep)

/-! ## The device table (10_state.md R25, 44_retry_sequencer.md R119, R122) -/

/-- An entry without content, for an index that no rule reads (10_state.md R25, log 8). -/
def Dev.blank : Dev :=
  { devid := 0, mfr := 0, prod := 0, cls := .none, ext := .none, wakeGated := false, joined := false, seen := false,
    hasCc := false,
    cc := { pending := false, cmd := 0, data := 0, retries := 0, active := false, frame := [], flen := 0 },
    th := { mode := 0, modeKnown := false, lastTel := 0 } }

/-- `DEV[k]`. -/
def State.dev (s : State) (k : Nat) : Dev := s.devs.getD k Dev.blank

/-- `DEV[k]` written. -/
def State.setDev (s : State) (k : Nat) (e : Dev) : State := { s with devs := s.devs.set k e }

/-- `DEV_COUNT` as a register (10_state.md R25): the number of valid entries. -/
def State.devCount (s : State) : BitVec 16 := BitVec.ofNat 16 s.devs.length

/-- `lookup(devid)` (44_retry_sequencer.md R119): the index of the valid entry with that ID. -/
def State.lookup (s : State) (devid : BitVec 24) : Option Nat := s.devs.findIdx? (fun e => e.devid == devid)

/-- The device result registers of an entry (44_retry_sequencer.md R122). -/
def reportOf (e : Dev) : DevReport :=
  let out := e.hasCc && e.cc.pending
  let therm := e.ext == .thermostat
  { found := true, devid := e.devid, mfr := e.mfr, prod := e.prod, cls := classCode e.cls, ext := extCode e.ext,
    joined := e.joined, seen := e.seen, hasCc := e.hasCc,
    pending := out
    cmdId := if out then e.cc.cmd else 0
    data := if out then e.cc.data else 0
    retries := if out then e.cc.retries else 0
    active := out && e.cc.active
    tMode := if therm then e.th.mode else 0
    tModeKnown := therm && e.th.modeKnown
    tLast := if therm then e.th.lastTel else 0 }

/-- `devReport(k)` (44_retry_sequencer.md R122). -/
def State.devReport (s : State) (k : Nat) : State := s.setCtx { s.ctx with dev := reportOf (s.dev k) }

/-- `devReportNone()` (44_retry_sequencer.md R122). -/
def State.devReportNone (s : State) : State := s.setCtx { s.ctx with dev := DevReport.reset }

end Sys2Proof.Machine
end

