-- ==== Sys2Proof/Machine/CrcCipher.lean ====
section
/-! DEFINITION. CRC-16 and stream cipher (40_crc_cipher.md): the functions `crc16` and `crypt`, and the operations CRC16 and
CIPHER. -/

namespace Sys2Proof.Machine

/-- One round of the CRC register (40_crc_cipher.md R74): shift left, XOR 0x1021 if bit 15 was set. -/
def crcBit (c : BitVec 16) : BitVec 16 := if c.getLsbD 15 then (c <<< 1) ^^^ 0x1021#16 else c <<< 1

/-- One byte into the CRC register (R74): XOR into the high 8 bits, then 8 rounds. -/
def crcByte (c : BitVec 16) (b : Byte) : BitVec 16 := Nat.iterate crcBit 8 (c ^^^ (b.setWidth 16 <<< 8))

/-- `crc16(B)` (R74): initial 0, bytes in index order, no final XOR. -/
def crc16 (bs : List Byte) : BitVec 16 := bs.foldl crcByte 0

/-- One round of the cipher state (40_crc_cipher.md R78). -/
def cipherBit (r : BitVec 16) : BitVec 16 := if r.getLsbD 0 then (r >>> 1) ^^^ 0xF5B5#16 else r >>> 1

/-- The five rounds of one byte (R78). -/
def cipherRounds (r : BitVec 16) : BitVec 16 := Nat.iterate cipherBit 5 r

/-- `seed(pip)` (40_crc_cipher.md R77), for the 8-bit key CRYPT_KEY. -/
def cipherSeed (key : Byte) (pip : BitVec 16) : BitVec 16 := (key.setWidth 16 <<< 8) ^^^ pip

/-- The bytes of `crypt` from cipher state `r` on (R78). -/
def cryptFrom (r : BitVec 16) : List Byte → List Byte
  | [] => []
  | b :: bs => ((cipherRounds r).setWidth 8 ^^^ b ^^^ 0x5A#8) :: cryptFrom (cipherRounds r) bs

/-- `crypt(pip, B)` (R78). -/
def crypt (key : Byte) (pip : BitVec 16) (bs : List Byte) : List Byte := cryptFrom (cipherSeed key pip) bs

/-- `A_OFF + A_LEN > size(A_BUF)` (R82, R83): the range passes the end of the selected buffer. -/
def rangePastEnd (a : Args) : Bool := decide (bufSize a.bufSelect < a.off.toNat + a.len.toNat)

/-- The bytes of the range `[A_OFF, A_OFF + A_LEN)` of the selected buffer (R82, R83). -/
def Ctx.rangeBytes (c : Ctx) : List Byte := Memory.readRange (c.buf c.args.bufSelect) c.args.off.toNat c.args.len.toNat

/-- CRC16 (40_crc_cipher.md R82). -/
def execCrc16 (s : State) : Host.Outcome State Fault Refusal :=
  .next
    (if rangePastEnd s.ctx.args then s.raise .badOperand
     else (s.setCtx { s.ctx with rCrc := crc16 s.ctx.rangeBytes }).finish .ok)

/-- CIPHER (40_crc_cipher.md R83). -/
def execCipher (s : State) : Host.Outcome State Fault Refusal :=
  .next
    (if rangePastEnd s.ctx.args then s.raise .badOperand
     else
      let c := s.ctx
      let m := Memory.writeRange (c.buf c.args.bufSelect) c.args.off.toNat (crypt s.cfg.cryptKey c.args.pip c.rangeBytes)
      (s.setCtx (c.setBuf c.args.bufSelect m)).finish .ok)

end Sys2Proof.Machine
end

