-- ==== Sys2Proof/Machine/FrameEncoder.lean ====
section
/-! DEFINITION. Frame encoder (41_frame_encoder.md): `encRecord`, `frameBytes`, and the operations ENC_RECORD, BUILD_FRAME and
TX_FRAME. -/

namespace Sys2Proof.Machine

/-- The two header bytes of an encoded record (41_frame_encoder.md R87): `0x80 | pid` and `(type << 4) | len`. -/
def recordHeader (r : CmdRow) : List Byte :=
  [0x80#8 ||| r.pid.setWidth 8, ((intTypeCode r.type).setWidth 8 <<< 4) ||| r.len.setWidth 8]

/-- The value bytes of an encoded record where the rules define them (R84, R85): none where they are a draw (R86). With LEN = 0
there is no byte and nothing is drawn. -/
def encValue (r : CmdRow) (d : BitVec 32) : Option (List Byte) :=
  if r.len = 0 then some []
  else if dataIsNonFinite d then none
  else
    let n := scaledData d (typeBp (intTypeCode r.type))
    if inRange n r.len.toNat (typeSigned (intTypeCode r.type)) then
      some (beBytes r.len.toNat (n % 2 ^ (8 * r.len.toNat)).toNat)
    else none

/-- `encRecord(cmd, d)` (R87): the record and the state after its draw if it made one, or none for UNKNOWN. -/
def State.encRecord (s : State) (cmd : Byte) (d : BitVec 32) : Option (List Byte × State) :=
  match cmdLookup s.cfg cmd with
  | none => none
  | some r =>
    match encValue r d with
    | some v => some (recordHeader r ++ v, s)
    | none => some (recordHeader r ++ s.valueBytes r.len.toNat, s.afterValueBytes)

/-- The plaintext of frame bytes 5 to L-2 (30_encoding.md R62, R66): device ID, records, terminator. -/
def framePlain (devid : BitVec 24) (recs : List Byte) : List Byte := be24 devid ++ recs ++ [0]

/-- `frameBytes(mfr, prod, devid, R, pip)` (41_frame_encoder.md R88): the CRC is taken over the plaintext before encryption, and
stays plaintext. -/
def frameBytes (key : Byte) (mfr prod : Byte) (devid : BitVec 24) (recs : List Byte) (pip : BitVec 16) : List Byte :=
  [BitVec.ofNat 8 (10 + recs.length), mfr, prod] ++ be16 pip ++ crypt key pip (framePlain devid recs)
    ++ be16 (crc16 (framePlain devid recs))

/-- ENC_RECORD (41_frame_encoder.md R90). -/
def execEncRecord (s : State) : Host.Outcome State Fault Refusal :=
  .next
    (if recMax < s.ctx.recLen.toNat then s.raise .badOperand
     else
      match s.encRecord s.ctx.args.cmd s.ctx.args.data with
      | none => s.raise .unknownCommand
      | some (e, s1) =>
        let c := s1.ctx
        if recMax < c.recLen.toNat + e.length then s1.raise .recordBufferFull
        else
          (s1.setCtx { c with recBuf := Memory.writeRange c.recBuf c.recLen.toNat e,
                              recLen := BitVec.ofNat 7 (c.recLen.toNat + e.length) }).finish .ok)

/-- BUILD_FRAME (41_frame_encoder.md R91). -/
def execBuildFrame (s : State) : Host.Outcome State Fault Refusal :=
  .next
    (if recMax < s.ctx.recLen.toNat then s.raise .badOperand
     else
      let pip := s.nonce
      let s1 := s.afterNonce
      let c := s1.ctx
      let f := frameBytes s1.cfg.cryptKey c.args.mfr c.args.prod c.args.devid
        (Memory.readRange c.recBuf 0 c.recLen.toNat) pip
      (s1.setCtx { c with txBuf := Memory.writeRange c.txBuf 0 f, txLen := BitVec.ofNat 7 f.length, rPip := pip }).finish .ok)

/-- TX_FRAME (41_frame_encoder.md R92). -/
def execTxFrame (s : State) : Host.Outcome State Fault Refusal :=
  .next
    (if s.holdsGate then
      if s.ctx.txLen = 0 ∨ frameMax < s.ctx.txLen.toNat then s.raise .badOperand
      else (s.transmit (Memory.readRange s.ctx.txBuf 0 s.ctx.txLen.toNat) s.ctx.args.repeatCount).finish .ok
     else s.raise .notLockOwner)

end Sys2Proof.Machine
end

