-- ==== Sys2Proof/Machine/Registry.lean ====
section
/-! DEFINITION. Device registry (44_retry_sequencer.md section 1): `getOrCreate`, and the operations DEV_CREATE, DEV_QUERY and
DEV_LIST. -/

namespace Sys2Proof.Machine

/-- A new entry (44_retry_sequencer.md R121). -/
def newDev (cfg : Config) (devid : BitVec 24) (mfr prod : Byte) (joined seen : Bool) (t : BitVec 64) : Dev :=
  let p := productInfo cfg prod
  { devid := devid, mfr := mfr, prod := prod, cls := p.cls, ext := p.ext, wakeGated := p.wakeGated, joined := joined,
    seen := seen, hasCc := p.cls == .smallWindow,
    cc := { pending := false, cmd := 0, data := 0, retries := 0, active := false, frame := [], flen := 0 },
    th := { mode := 0, modeKnown := false, lastTel := t } }

/-- `getOrCreate(devid, mfr, prod, joined, seen, t)` (44_retry_sequencer.md R121): the index, whether it was created, and the
state after; none for CAPACITY. -/
def State.getOrCreate (s : State) (devid : BitVec 24) (mfr prod : Byte) (joined seen : Bool) (t : BitVec 64) :
    Option (Nat × Bool × State) :=
  match s.lookup devid with
  | some k => some (k, false, s)
  | none =>
    if s.devs.length = s.cfg.devMax then none
    else some (s.devs.length, true, { s with devs := s.devs ++ [newDev s.cfg devid mfr prod joined seen t] })

/-- `G.G_FATAL <- 1` (10_state.md R31). -/
def State.setFatal (s : State) : State := { s with fatal := true }

/-- DEV_CREATE (44_retry_sequencer.md R123). -/
def execDevCreate (s : State) : Host.Outcome State Fault Refusal :=
  .next
    (let a := s.ctx.args
     match s.getOrCreate a.devid a.mfr a.prod (a.flags.getLsbD 0) (a.flags.getLsbD 1) s.now with
     | none => s.setFatal.raise .capacityExceeded
     | some (k, created, s1) => ((s1.setCtx { s1.ctx with rCreated := created }).devReport k).finish .ok)

/-- DEV_QUERY (44_retry_sequencer.md R124). -/
def execDevQuery (s : State) : Host.Outcome State Fault Refusal :=
  .next
    (match s.lookup s.ctx.args.devid with
     | none => s.devReportNone.raise .notFound
     | some k => (s.devReport k).finish .ok)

/-- DEV_LIST (44_retry_sequencer.md R125). -/
def execDevList (s : State) : Host.Outcome State Fault Refusal :=
  .next
    (if s.devs.length ≤ s.ctx.args.index.toNat then s.devReportNone.raise .notFound
     else (s.devReport s.ctx.args.index.toNat).finish .ok)

end Sys2Proof.Machine
end

