-- ==== Sys2Proof/Machine/CachedCommand.lean ====
section
/-! DEFINITION. Cached commands (44_retry_sequencer.md section 2): `clearCmd`, `attachCmd`, `sendCached`, and the operations
CACHE_CMD and TRY_SEND. -/

namespace Sys2Proof.Machine

/-- An entry whose command is cleared; FRAME, FLEN and ACTIVE keep their values (44_retry_sequencer.md R126). -/
def clearedDev (e : Dev) : Dev := { e with cc := { e.cc with pending := false, cmd := 0, data := 0, retries := 0 } }

/-- `clearCmd(k)` (44_retry_sequencer.md R126). -/
def State.clearCmd (s : State) (k : Nat) : State :=
  let e := s.dev k
  if e.hasCc && e.cc.pending then
    { (s.setDev k (clearedDev e)) with
      cntActive := if e.cc.active then s.cntActive - 1 else s.cntActive
      cntPrecached := if e.cc.active then s.cntPrecached else s.cntPrecached - 1 }
  else s

/-- An entry with the command and its pre-built frame stored (44_retry_sequencer.md R127): ACTIVE of a new command is SEEN, and an
overwrite keeps it. -/
def attachedDev (e : Dev) (cmd : Byte) (d : BitVec 32) (retries : Byte) (f : List Byte) : Dev :=
  { e with
    cc := { pending := true, cmd := cmd, data := d, retries := retries,
            active := if e.cc.pending then e.cc.active else e.seen
            frame := Memory.ofBytes f, flen := BitVec.ofNat 7 f.length } }

/-- `attachCmd(k, cmd, d, retries, F)` (44_retry_sequencer.md R127). -/
def State.attachCmd (s : State) (k : Nat) (cmd : Byte) (d : BitVec 32) (retries : Byte) (f : List Byte) : State :=
  let e := s.dev k
  { (s.setDev k (attachedDev e cmd d retries f)) with
    cntActive := if e.cc.pending then s.cntActive else if e.seen then s.cntActive + 1 else s.cntActive
    cntPrecached := if e.cc.pending then s.cntPrecached else if e.seen then s.cntPrecached else s.cntPrecached + 1 }

/-- An entry after one transmit of its command (44_retry_sequencer.md R129): one retry less, and active. -/
def sentDev (e : Dev) : Dev := { e with cc := { e.cc with retries := e.cc.retries - 1, active := true } }

/-- The state after one transmit of entry `k`'s command, before the clear of a spent one (44_retry_sequencer.md R129): the port
event, one retry less, and the promotion of a pre-cached command. -/
def State.sendOnce (s : State) (k : Nat) : State :=
  let e := s.dev k
  { ((s.transmit (Memory.readRange e.cc.frame 0 e.cc.flen.toNat) s.cfg.txRepeat).setDev k (sentDev e)) with
    cntActive := if e.cc.active then s.cntActive else s.cntActive + 1
    cntPrecached := if e.cc.active then s.cntPrecached else s.cntPrecached - 1 }

/-- `sendCached(k)` (44_retry_sequencer.md R129): whether it transmitted, and the state after. -/
def State.sendCached (s : State) (k : Nat) : Bool × State :=
  let e := s.dev k
  if e.hasCc && e.cc.pending then
    if e.cc.retries = 0 then (false, s.clearCmd k)
    else
      let s1 := s.sendOnce k
      (true, if (s1.dev k).cc.retries = 0 then s1.clearCmd k else s1)
  else (false, s)

/-- How CACHE_CMD ends when it stores a command on entry `k` (44_retry_sequencer.md R128): the nonce draw, the frame, the attach
and the results. -/
def State.cacheRecord (s : State) (k : Nat) (created : Bool) (rec : List Byte) : State :=
  let pip := s.nonce
  let s1 := s.afterNonce
  let a := s1.ctx.args
  let f := frameBytes s1.cfg.cryptKey (s1.dev k).mfr (s1.dev k).prod a.devid rec pip
  let s2 := s1.attachCmd k a.cmd a.data a.retries f
  ((s2.setCtx { s2.ctx with rPip := pip, rCreated := created }).devReport k).finish .ok

/-- CACHE_CMD for a device that the registry does not hold (44_retry_sequencer.md R128). -/
def State.cacheUnknown (s : State) : State :=
  let a := s.ctx.args
  if a.cmd = 0 then s.raise .cancelUnknownDevice
  else if (productInfo s.cfg a.prod).cls = .smallWindow then
    match s.encRecord a.cmd a.data with
    | none => s.raise .unknownCommand
    | some (r, s1) =>
      match s1.getOrCreate a.devid s1.cfg.mfrDefault a.prod false false s1.now with
      | none => s1.setFatal.raise .capacityExceeded
      | some (k, _, s2) => s2.cacheRecord k true r
  else s.raise .deviceNotCacheable

/-- CACHE_CMD for the device of entry `k` (44_retry_sequencer.md R128). -/
def State.cacheKnown (s : State) (k : Nat) : State :=
  let a := s.ctx.args
  if a.cmd = 0 then
    let s1 := s.clearCmd k
    ((s1.setCtx { s1.ctx with rCreated := false }).devReport k).finish .ok
  else if (s.dev k).hasCc then
    match s.encRecord a.cmd a.data with
    | none => s.raise .unknownCommand
    | some (r, s1) => s1.cacheRecord k false r
  else s.raise .deviceNotCacheable

/-- CACHE_CMD (44_retry_sequencer.md R128). -/
def execCacheCmd (s : State) : Host.Outcome State Fault Refusal :=
  .next
    (match s.lookup s.ctx.args.devid with
     | none => s.cacheUnknown
     | some k => s.cacheKnown k)

/-- TRY_SEND (44_retry_sequencer.md R130). -/
def execTrySend (s : State) : Host.Outcome State Fault Refusal :=
  .next
    (if s.holdsGate then
      match s.lookup s.ctx.args.devid with
      | none =>
        let s1 := s.setCtx { s.ctx with rSent := false }
        s1.devReportNone.raise .notFound
      | some k =>
        let (sent, s1) := s.sendCached k
        ((s1.setCtx { s1.ctx with rSent := sent }).devReport k).finish .ok
     else s.raise .notLockOwner)

end Sys2Proof.Machine
end

