-- ==== Sys2Proof/Machine/FrameDecoder.lean ====
section
/-! DEFINITION. Frame decoder and CRC validator (42_frame_decoder.md): `decodeFrame`, and the operation DECODE_FRAME. -/

namespace Sys2Proof.Machine

/-- The record at index `i` of the plaintext (42_frame_decoder.md R99 to R104). -/
def recordAt (p : List Byte) (i : Nat) : DecRec :=
  let b0 := p.getD i 0
  let b1 := p.getD (i + 1) 0
  let type := b1.extractLsb' 4 4
  let len := b1.extractLsb' 0 4
  let v := (List.range len.toNat).map (fun j => p.getD (i + 2 + j) 0)
  let neg := typeSigned type && decide (0 < len.toNat) && (v.getD 0 0).getLsbD 7
  { pid := b0.extractLsb' 0 7
    cf := b0.getLsbD 7
    type := type
    len := len
    off := BitVec.ofNat 7 (i + 2)
    raw := v ++ List.replicate (15 - len.toNat) 0
    ival := BitVec.ofInt 128 (if neg then (beNat v : Int) - 2 ^ (8 * len.toNat) else (beNat v : Int))
    bp := BitVec.ofNat 5 (typeBp type)
    signed := typeSigned type
    fvalid := !typeReserved type }

/-- `parseRecords(P, i, end)` (42_frame_decoder.md R97, R98). Each record is at least two bytes long, so `fuel = end - i` is
more than the walk takes. -/
def parseRecords (p : List Byte) (stop : Nat) : Nat → Nat → List DecRec
  | 0, _ => []
  | fuel + 1, i =>
    if stop ≤ i then []
    else if (p.getD i 0).extractLsb' 0 7 = 0 then []
    else if stop ≤ i + 1 then []
    else
      let len := ((p.getD (i + 1) 0).extractLsb' 0 4).toNat
      if stop < i + 2 + len then []
      else recordAt p i :: parseRecords p stop fuel (i + 2 + len)

/-- The fields of a frame that decodes (42_frame_decoder.md R93, R96). -/
structure DecodedFrame where
  l : Byte
  mfr : Byte
  prod : Byte
  pip : BitVec 16
  devid : BitVec 24
  crc : BitVec 16
  recs : List DecRec
  /-- the plaintext copy P. -/
  plain : List Byte
  deriving DecidableEq, Repr

/-- The three results of `decodeFrame` (42_frame_decoder.md R93). -/
inductive DecodeResult
  | frameLen
  | crcMismatch (plain : List Byte)
  | ok (f : DecodedFrame)
  deriving DecidableEq, Repr

/-- The plaintext copy P of a frame of length byte `l` (42_frame_decoder.md R95): bytes 5 to l-2 decrypted with the frame's own
nonce, the others as they are. -/
def framePlaintext (key : Byte) (b : Memory) (l : Nat) : List Byte :=
  Memory.readRange b 0 5
    ++ crypt key (Memory.read b 3 ++ Memory.read b 4) (Memory.readRange b 5 (l - 6))
    ++ Memory.readRange b (l - 1) 2

/-- `decodeFrame(B, n)` (42_frame_decoder.md R93 to R97). -/
def decodeFrame (key : Byte) (b : Memory) (n : Nat) : DecodeResult :=
  let l := (Memory.read b 0).toNat
  if n = 0 ∨ l < 10 ∨ 66 < l ∨ n < l + 1 then .frameLen
  else
    let p := framePlaintext key b l
    let rx : BitVec 16 := Memory.read b (l - 1) ++ Memory.read b l
    if crc16 ((p.drop 5).take (l - 6)) ≠ rx then .crcMismatch p
    else
      .ok { l := Memory.read b 0, mfr := Memory.read b 1, prod := Memory.read b 2,
            pip := Memory.read b 3 ++ Memory.read b 4,
            devid := p.getD 5 0 ++ p.getD 6 0 ++ p.getD 7 0,
            crc := rx, recs := parseRecords p (l - 1) (l - 1 - 8) 8, plain := p }

/-- The decode outputs of a frame that decodes, over the old ones: records at index ≥ DEC_NREC keep their value (10_state.md R18,
42_frame_decoder.md R107). -/
def decOutOf (f : DecodedFrame) (old : DecOut) : DecOut :=
  { valid := true, l := f.l, mfr := f.mfr, prod := f.prod, pip := f.pip, devid := f.devid, crc := f.crc,
    nrec := BitVec.ofNat 5 f.recs.length, recs := f.recs ++ old.recs.drop f.recs.length }

/-- What a decode writes into PLAIN_BUF and the DEC_* registers (42_frame_decoder.md R107). -/
def Ctx.writeDecode (c : Ctx) : DecodeResult → Ctx
  | .frameLen => { c with dec := { c.dec with valid := false } }
  | .crcMismatch p => { c with plainBuf := Memory.writeRange c.plainBuf 0 p, dec := { c.dec with valid := false } }
  | .ok f => { c with plainBuf := Memory.writeRange c.plainBuf 0 f.plain, dec := decOutOf f c.dec }

/-- The status code of a decode (42_frame_decoder.md R107). -/
def decodeCode : DecodeResult → Code
  | .frameLen => .frameLen
  | .crcMismatch _ => .crcMismatch
  | .ok _ => .ok

/-- The decoded records in use: `DEC_REC[0 .. DEC_NREC)` (10_state.md R18). -/
def DecOut.used (d : DecOut) : List DecRec := d.recs.take d.nrec.toNat

/-- DECODE_FRAME (42_frame_decoder.md R107). -/
def execDecodeFrame (s : State) : Host.Outcome State Fault Refusal :=
  .next
    (if frameMax < s.ctx.rxLen.toNat then s.raise .badOperand
     else
      let d := decodeFrame s.cfg.cryptKey s.ctx.rxBuf s.ctx.rxLen.toNat
      (s.setCtx (s.ctx.writeDecode d)).finish (decodeCode d))

end Sys2Proof.Machine
end

