-- ==== Sys2Proof/Machine/PostProcess.lean ====
section
/-! DEFINITION. Post-processing (44_retry_sequencer.md section 3) and the operation POST_PROCESS. -/

namespace Sys2Proof.Machine

/-- `exists r in recs with r.PID = pid`. -/
def hasPid (recs : List DecRec) (pid : BitVec 7) : Bool := recs.any (fun r => r.pid == pid)

/-- `exists r in recs with r.PID != PARAM_WAKEUP`. -/
def hasOther (c : Config) (recs : List DecRec) : Bool := recs.any (fun r => !(r.pid == c.paramWakeup))

/-- The post-processing registers of the issuing context written. -/
def State.setPost (s : State) (p : PostReport) : State := s.setCtx { s.ctx with post := p }

/-- The thermostat fields that a frame with a non-wakeup record writes (44_retry_sequencer.md R133): the telemetry timestamp, and
the mode of an acknowledged set-mode command. -/
def acknowledgedTh (c : Config) (e : Dev) (ts : BitVec 64) : Thermostat :=
  if e.hasCc && e.cc.pending && e.cc.cmd == c.cmdThermMode then { mode := e.cc.data, modeKnown := true, lastTel := ts }
  else { e.th with lastTel := ts }

/-- The assumed effect of an acknowledged command that the device never echoes (44_retry_sequencer.md R133). -/
def acknowledgedPost (c : Config) (e : Dev) (p : PostReport) : PostReport :=
  if c.noEchoCmds.contains e.cc.cmd then
    { p with acked := true, assumed := true, assumedCmd := e.cc.cmd, assumedData := e.cc.data }
  else { p with acked := true }

/-- `thermostatAck(k, hasOther, ts)` (44_retry_sequencer.md R133). -/
def State.thermostatAck (s : State) (k : Nat) (other : Bool) (ts : BitVec 64) : State :=
  if other then
    let e := s.dev k
    let s1 := s.setDev k { e with th := acknowledgedTh s.cfg e ts }
    if e.hasCc && e.cc.pending then
      let s2 := s1.clearCmd k
      s2.setPost (acknowledgedPost s.cfg e s2.ctx.post)
    else s1
  else s

/-- `valveAck(k, recs)` (44_retry_sequencer.md R134). -/
def State.valveAck (s : State) (k : Nat) (recs : List DecRec) : State :=
  let e := s.dev k
  if e.hasCc && e.cc.pending && recs.any (fun r => acknowledges s.cfg e.cc.cmd r.pid) then
    let s1 := s.clearCmd k
    s1.setPost { s1.ctx.post with acked := true }
  else s

/-- The auto-telemetry rule fires for an entry (44_retry_sequencer.md R135): a wakeup record, nothing outstanding, a known mode
that is not Gateway, and TELEMETRY_PERIOD elapsed. -/
def autoDue (c : Config) (e : Dev) (wake : Bool) (ts : BitVec 64) : Bool :=
  wake && e.hasCc && !e.cc.pending && e.th.modeKnown && !(e.th.mode == c.modeGateway)
    && decide (e.th.lastTel.toNat ≤ ts.toNat) && decide (c.telemetryPeriod.toNat ≤ ts.toNat - e.th.lastTel.toNat)

/-- `autoTelemetry(k, hasWake, ts)` (44_retry_sequencer.md R135). -/
def State.autoTelemetry (s : State) (k : Nat) (wake : Bool) (ts : BitVec 64) : State :=
  let e := s.dev k
  if autoDue s.cfg e wake ts then
    match s.encRecord s.cfg.cmdThermMode e.th.mode with
    | none => s
    | some (r, s1) =>
      let pip := s1.nonce
      let s2 := s1.afterNonce
      let f := frameBytes s2.cfg.cryptKey e.mfr e.prod e.devid r pip
      let s3 := s2.attachCmd k s2.cfg.cmdThermMode e.th.mode s2.cfg.autoRetries f
      s3.setPost { s3.ctx.post with autoCached := true }
  else s

/-- `postProcess(k, recs, ts)` (44_retry_sequencer.md R132). -/
def State.postProcess (s : State) (k : Nat) (recs : List DecRec) (ts : BitVec 64) : State :=
  let wake := hasPid recs s.cfg.paramWakeup
  let s1 := s.setPost { PostReport.reset with hasWake := wake }
  let s2 :=
    match (s.dev k).ext with
    | .thermostat => (s1.thermostatAck k (hasOther s.cfg recs) ts).autoTelemetry k wake ts
    | .valve => s1.valveAck k recs
    | .none => s1
  s2.devReport k

/-- POST_PROCESS (44_retry_sequencer.md R136). -/
def execPostProcess (s : State) : Host.Outcome State Fault Refusal :=
  .next
    (if s.ctx.dec.valid then
      match s.lookup s.ctx.dec.devid with
      | none => s.devReportNone.raise .notFound
      | some k => (s.postProcess k s.ctx.dec.used s.ctx.args.time).finish .ok
     else s.raise .badOperand)

end Sys2Proof.Machine
end

