-- ==== Sys2Proof/Machine/RadioGate.lean ====
section
/-! DEFINITION. Exclusive radio access gate (45_radio_gate.md): `gateTake`, and the operations GATE_ACQUIRE with its wait step,
GATE_RELEASE, SHUTDOWN and NOP. -/

namespace Sys2Proof.Machine

/-- What `gateTake` returns (45_radio_gate.md R146). -/
inductive Taken
  | already
  | taken
  | fail
  deriving DecidableEq, Repr

/-- The gate replaced. -/
def State.setGate (s : State) (g : Gate) : State := { s with gate := g }

/-- The gate given to the issuing context (45_radio_gate.md R146). -/
def State.grantGate (s : State) : State :=
  s.setGate { init := true, held := true, owner := BitVec.ofNat 8 s.cur }

/-- `gateTake(C)` (45_radio_gate.md R146). Its caller makes sure that no other context holds the gate. -/
def State.gateTake (s : State) : Taken × State :=
  if s.holdsGate then (.already, s)
  else if s.gate.init then (.taken, s.grantGate)
  else if s.initAnswer then (.taken, (s.afterInit.logEvent (.setMode s.cfg.defaultMode)).grantGate)
  else (.fail, s.afterInit)

/-- `G.G_HELD <- 0`; G_INIT and G_OWNER keep their values (45_radio_gate.md R148). -/
def State.freeGate (s : State) : State := s.setGate { s.gate with held := false }

/-- `if t = TAKEN: G.G_HELD <- 0` (44_retry_sequencer.md R138, R141): release only what the step took. -/
def State.putBack (s : State) (t : Taken) : State := if t = .taken then s.freeGate else s

/-- How GATE_ACQUIRE ends when the gate is free (45_radio_gate.md R147). -/
def State.acquireFree (s : State) : State :=
  match s.gateTake with
  | (.fail, s1) => s1.raise .lockUnavailable
  | (_, s1) => (s1.setCtx { s1.ctx with rAlready := false }).finish .ok

/-- GATE_ACQUIRE, the step of the CMD write (45_radio_gate.md R147). -/
def execGateAcquire (s : State) : Host.Outcome State Fault Refusal :=
  .next
    (if s.holdsGate then (s.setCtx { s.ctx with rAlready := true }).finish .ok
     else if s.gate.held then
      (s.setCtx { s.ctx with busy := true, poll := { s.ctx.poll with rxs := .gateWait } })
     else s.acquireFree)

/-- The GATE_WAIT step, once enabled (45_radio_gate.md R147). -/
def State.gateWaitStep (s : State) : State := (s.setRxs .off).acquireFree

/-- GATE_RELEASE (45_radio_gate.md R148). -/
def execGateRelease (s : State) : Host.Outcome State Fault Refusal :=
  .next (if s.holdsGate then s.freeGate.finish .ok else s.raise .notLockOwner)

/-- SHUTDOWN (45_radio_gate.md R149). -/
def execShutdown (s : State) : Host.Outcome State Fault Refusal :=
  .next
    (if s.holdsGate then
      ((s.logEvent .shutdown).setGate { s.gate with init := false, held := false }).finish .ok
     else s.raise .notLockOwner)

/-- NOP (45_radio_gate.md R150). -/
def execNop (s : State) : Host.Outcome State Fault Refusal := .next (s.finish .ok)

end Sys2Proof.Machine
end

