-- ==== Sys2Proof/Machine/RingBuffer.lean ====
section
/-! DEFINITION. Receive ring buffer (43_ring_buffer.md): push, pop, peek and drain, and the operations RB_PUSH, RB_POP, RB_PEEK
and RB_DRAIN. -/

namespace Sys2Proof.Machine

/-- `RB_SLOT[i]`. -/
def Ring.slot (r : Ring) (i : Fin 5) : Slot := r.slots.getD i.val Slot.reset

/-- `rbPush(D, n, ts)` with n = |D| (43_ring_buffer.md R110): the bytes of the slot past n become 0, and a push on a full buffer
loses the oldest unread slot. -/
def Ring.push (r : Ring) (d : List Byte) (ts : BitVec 64) : Ring :=
  { slots := r.slots.set r.head.val { bytes := Memory.ofBytes d, len := BitVec.ofNat 7 d.length, ts := ts }
    head := r.head + 1
    tail := if r.count = 5 then r.tail + 1 else r.tail
    count := if r.count = 5 then r.count else r.count + 1 }

/-- `rbPop()` (43_ring_buffer.md R111): none for EMPTY, else the slot and the ring after. -/
def Ring.pop (r : Ring) : Option (Slot × Ring) :=
  if r.count = 0 then none else some (r.slot r.tail, { r with tail := r.tail + 1, count := r.count - 1 })

/-- `rbPeek(i)` (43_ring_buffer.md R112): index 0 is the oldest unread slot. -/
def Ring.peek (r : Ring) (i : Nat) : Option Slot :=
  if r.count.val ≤ i then none else some (r.slots.getD ((r.tail.val + i) % 5) Slot.reset)

/-- The ring replaced. -/
def State.setRing (s : State) (r : Ring) : State := { s with ring := r }

/-- `drain()` (43_ring_buffer.md R113), at most `n` frames. The caller holds the gate. Five turns fill any ring buffer, and a
full one ends the loop. -/
def State.drainLoop : Nat → State → State
  | 0, s => s
  | n + 1, s =>
    if s.ring.count = 5 then s
    else if s.waitAnswer then
      match s.afterWait.readAnswer with
      | .err => s.afterWait.afterRead
      | .ok d => State.drainLoop n (s.afterWait.afterRead.setRing (s.ring.push d s.now))
    else s.afterWait

/-- `drain()` (43_ring_buffer.md R113). -/
def State.drain (s : State) : State := State.drainLoop 5 s

/-- RX_BUF, RX_LEN and R_TS from a slot (43_ring_buffer.md R115, R116; 44_retry_sequencer.md R139): all 67 bytes are written. -/
def Ctx.takeSlot (c : Ctx) (e : Slot) : Ctx :=
  { c with rxBuf := Memory.writeRange c.rxBuf 0 (Memory.readRange e.bytes 0 frameMax), rxLen := e.len, rTs := e.ts }

/-- RB_PUSH (43_ring_buffer.md R114). -/
def execRbPush (s : State) : Host.Outcome State Fault Refusal :=
  .next
    (if frameMax < s.ctx.rxLen.toNat then s.raise .badOperand
     else
      (s.setRing (s.ring.push (Memory.readRange s.ctx.rxBuf 0 s.ctx.rxLen.toNat) s.ctx.args.time)).finish .ok)

/-- RB_POP (43_ring_buffer.md R115). -/
def execRbPop (s : State) : Host.Outcome State Fault Refusal :=
  .next
    (match s.ring.pop with
     | none => s.raise .empty
     | some (e, r) => ((s.setRing r).setCtx (s.ctx.takeSlot e)).finish .ok)

/-- RB_PEEK (43_ring_buffer.md R116). -/
def execRbPeek (s : State) : Host.Outcome State Fault Refusal :=
  .next
    (match s.ring.peek s.ctx.args.index.toNat with
     | none => s.raise .empty
     | some e => (s.setCtx (s.ctx.takeSlot e)).finish .ok)

/-- RB_DRAIN (43_ring_buffer.md R117). -/
def execRbDrain (s : State) : Host.Outcome State Fault Refusal :=
  .next (if s.holdsGate then s.drain.finish .ok else s.raise .notLockOwner)

end Sys2Proof.Machine
end

