-- ==== Sys2Proof/Machine/ReceivePoll.lean ====
section
/-! DEFINITION. Receive pipeline (44_retry_sequencer.md section 4): RX_POLL's start step, its later steps, and the step a waiting
context takes (60_exceptions.md R159). -/

namespace Sys2Proof.Machine

/-- RX_POLL, the start step (44_retry_sequencer.md R137). -/
def execRxPoll (s : State) : Host.Outcome State Fault Refusal :=
  .next
    (let c := s.ctx
     s.setCtx
      { c with
        rSent := false, rCreated := false, dec := { c.dec with valid := false }, post := PostReport.reset, busy := true,
        poll := { c.poll with rxs := .draining, deadline := satAdd s.now c.args.timeout.toNat,
                              zero := c.args.timeout == 0, owned := s.holdsGate } })

/-- The DRAINING step, once enabled (44_retry_sequencer.md R138). -/
def State.drainingStep (s : State) : State :=
  match s.gateTake with
  | (.fail, s1) => s1.endPoll .lockUnavailable
  | (t, s1) => (s1.drain.putBack t).setRxs .decoding

/-- `injectWanted(k, recs)` (44_retry_sequencer.md R140), with the fast path of the two global counters. -/
def State.injectWanted (s : State) (k : Nat) (recs : List DecRec) : Bool :=
  let e := s.dev k
  !(s.cntActive == 0 && s.cntPrecached == 0) && e.hasCc && e.cc.pending
    && (!e.wakeGated || hasPid recs s.cfg.paramWakeup)

/-- The DECODING step on an empty ring buffer (44_retry_sequencer.md R139): NO_MESSAGE, or a sleep that never passes the
deadline. -/
def State.decodeEmpty (s : State) : State :=
  let p := s.ctx.poll
  if p.zero ∨ p.deadline.toNat ≤ s.now.toNat then s.endPoll .noMessage
  else
    let iv := if s.cntActive == 0 && s.cntPrecached == 0 then s.cfg.sleepLong else s.cfg.sleepShort
    let wake := BitVec.ofNat 64 (min (s.now.toNat + iv) p.deadline.toNat)
    s.setCtx { s.ctx with poll := { p with rxs := .idle, wake := wake } }

/-- `DEV[k].SEEN <- 1` (10_state.md R29). -/
def State.markSeen (s : State) (k : Nat) : State := s.setDev k { s.dev k with seen := true }

/-- The DECODING step after a valid frame with arrival time `ts` (44_retry_sequencer.md R139). -/
def State.decodeValid (s : State) (f : DecodedFrame) (ts : BitVec 64) : State :=
  match s.getOrCreate f.devid f.mfr f.prod false true ts with
  | none => s.setFatal.endPoll .capacityExceeded
  | some (k, created, s1) =>
    let s2 := s1.markSeen k
    let s3 := s2.setCtx { s2.ctx with rCreated := created }
    if s3.injectWanted k f.recs then
      s3.setCtx { s3.ctx with poll := { s3.ctx.poll with rxs := .inject, dev := BitVec.ofNat 16 k } }
    else (s3.postProcess k f.recs ts).endPoll .ok

/-- The DECODING step, always enabled (44_retry_sequencer.md R139): one frame popped and decoded. A frame that fails decoding is
dropped, and CODE is not written. -/
def State.decodingStep (s : State) : State :=
  match s.ring.pop with
  | none => s.decodeEmpty
  | some (e, r) =>
    let c := s.ctx.takeSlot e
    let d := decodeFrame s.cfg.cryptKey c.rxBuf c.rxLen.toNat
    let s1 := (s.setRing r).setCtx (c.writeDecode d)
    match d with
    | .frameLen => s1
    | .crcMismatch _ => s1
    | .ok f => s1.decodeValid f e.ts

/-- The INJECT step, once enabled (44_retry_sequencer.md R141). -/
def State.injectStep (s : State) : State :=
  match s.gateTake with
  | (.fail, s1) => s1.endPoll .lockUnavailable
  | (t, s1) =>
    let k := s1.ctx.poll.dev.toNat
    let (sent, s2) := s1.sendCached k
    let s3 := (s2.setCtx { s2.ctx with rSent := sent }).putBack t
    (s3.postProcess k s3.ctx.dec.used s3.ctx.rTs).endPoll .ok

/-- The step of the issuing context, if it has one that is enabled (60_exceptions.md R159, 44_retry_sequencer.md R143, 45_radio_gate.md
R147). A hold changes nothing: a step that is not enabled does not happen (log 13). -/
def State.proceed (s : State) : State :=
  match s.ctx.poll.rxs with
  | .off => s
  | .gateWait => if s.gate.held then s else s.gateWaitStep
  | .draining => if s.otherHolds then s else s.drainingStep
  | .decoding => s.decodingStep
  | .inject => if s.otherHolds then s else s.injectStep
  | .idle => if s.ctx.poll.wake.toNat ≤ s.now.toNat then s.setRxs .draining else s

end Sys2Proof.Machine
end

