-- ==== Sys2Proof/Machine/Dispatch.lean ====
section
/-! DEFINITION. One arm for each operation (30_encoding.md R56). -/

namespace Sys2Proof.Machine

/-- The operation that a legal command word selects (30_encoding.md R55), performed by the issuing context `s.cur`. -/
def exec (i : Instr) (s : State) : Host.Outcome State Fault Refusal :=
  match i with
  | .nop => Sys2Proof.Machine.execNop s
  | .crc16 => Sys2Proof.Machine.execCrc16 s
  | .cipher => Sys2Proof.Machine.execCipher s
  | .encRecord => Sys2Proof.Machine.execEncRecord s
  | .buildFrame => Sys2Proof.Machine.execBuildFrame s
  | .decodeFrame => Sys2Proof.Machine.execDecodeFrame s
  | .txFrame => Sys2Proof.Machine.execTxFrame s
  | .rbPush => Sys2Proof.Machine.execRbPush s
  | .rbPop => Sys2Proof.Machine.execRbPop s
  | .rbPeek => Sys2Proof.Machine.execRbPeek s
  | .rbDrain => Sys2Proof.Machine.execRbDrain s
  | .devCreate => Sys2Proof.Machine.execDevCreate s
  | .devQuery => Sys2Proof.Machine.execDevQuery s
  | .devList => Sys2Proof.Machine.execDevList s
  | .cacheCmd => Sys2Proof.Machine.execCacheCmd s
  | .trySend => Sys2Proof.Machine.execTrySend s
  | .postProcess => Sys2Proof.Machine.execPostProcess s
  | .rxPoll => Sys2Proof.Machine.execRxPoll s
  | .gateAcquire => Sys2Proof.Machine.execGateAcquire s
  | .gateRelease => Sys2Proof.Machine.execGateRelease s
  | .shutdown => Sys2Proof.Machine.execShutdown s

end Sys2Proof.Machine
end

