-- ==== Sys2Proof/Decode.lean ====
section
/-! DEFINITION. The command word (30_encoding.md R54 to R57, R61): its decoder, total on every 32-bit word and rejecting by
name, and the encoder. A command word is a number written to a register (20_memory.md R42), so it has no byte order. -/

namespace Sys2Proof

/-- Why a command word is illegal (30_encoding.md R57). -/
inductive DecodeError
  /-- `RSV`, bits [31:8], is not 0. -/
  | reservedBits
  /-- `OP`, bits [7:0], is not a code of 30_encoding.md R56. -/
  | unassignedCode
  deriving DecidableEq, Repr

/-- Field `OP`, bits [7:0] (30_encoding.md R54). -/
def opField (w : Word) : Nat := (w.extractLsb' 0 8).toNat

/-- Field `RSV`, bits [31:8] (30_encoding.md R54). -/
def rsvField (w : Word) : Nat := (w.extractLsb' 8 24).toNat

/-- The opcode map (30_encoding.md R56). -/
def decodeOp : Nat → Option Instr
  | 0x00 => some .nop
  | 0x01 => some .crc16
  | 0x02 => some .cipher
  | 0x03 => some .encRecord
  | 0x04 => some .buildFrame
  | 0x05 => some .decodeFrame
  | 0x06 => some .txFrame
  | 0x10 => some .rbPush
  | 0x11 => some .rbPop
  | 0x12 => some .rbPeek
  | 0x13 => some .rbDrain
  | 0x20 => some .devCreate
  | 0x21 => some .devQuery
  | 0x22 => some .devList
  | 0x23 => some .cacheCmd
  | 0x24 => some .trySend
  | 0x25 => some .postProcess
  | 0x26 => some .rxPoll
  | 0x30 => some .gateAcquire
  | 0x31 => some .gateRelease
  | 0x32 => some .shutdown
  | _ => none

/-- The operation a command word selects (30_encoding.md R55), or why it is illegal (R57). -/
def decode (w : Word) : Except DecodeError Instr :=
  if rsvField w = 0 then
    match decodeOp (opField w) with
    | some i => .ok i
    | none => .error .unassignedCode
  else .error .reservedBits

/-- The operation code of an operation (30_encoding.md R56). -/
def opCode : Instr → Byte
  | .nop => 0x00
  | .crc16 => 0x01
  | .cipher => 0x02
  | .encRecord => 0x03
  | .buildFrame => 0x04
  | .decodeFrame => 0x05
  | .txFrame => 0x06
  | .rbPush => 0x10
  | .rbPop => 0x11
  | .rbPeek => 0x12
  | .rbDrain => 0x13
  | .devCreate => 0x20
  | .devQuery => 0x21
  | .devList => 0x22
  | .cacheCmd => 0x23
  | .trySend => 0x24
  | .postProcess => 0x25
  | .rxPoll => 0x26
  | .gateAcquire => 0x30
  | .gateRelease => 0x31
  | .shutdown => 0x32

/-- The command word of an operation: the code below, zeros above (30_encoding.md R54, R59). -/
def encode (i : Instr) : Word := (opCode i).setWidth 32

/-- The instruction the decoder reads from a word of the opcode table: `w` is the command word's number, bits from `nbits` up
to 32 are 0, and a number of more than 32 bits is no command word (30_encoding.md R61). -/
def decodeTableWord (nbits w : Nat) : Option Instr :=
  if nbits ≤ 32 ∧ w < 2 ^ 32 then
    match decode (BitVec.ofNat 32 w) with
    | .ok i => some i
    | .error _ => none
  else none

end Sys2Proof
end

