-- ==== Sys2Proof/Machine/HostPort.lean ====
section
/-! DEFINITION. The host interface (10_state.md R21, R33; 20_memory.md R44; 30_encoding.md R55): the environment's next input, host
writes and reads, the write of a command word, time and reset. -/

namespace Sys2Proof.Machine

/-! ## The next input (20_memory.md R46) -/

/-- The environment's next choice: the oldest one lined up, or a free value where none is (log 2). -/
def State.nextInput (s : State) : Input :=
  match s.env.inputs with
  | i :: _ => i
  | [] => Config.freeInput s.env.inputNo

/-- The state with that choice taken from the line. -/
def State.afterInput (s : State) : State :=
  { s with env := { s.env with inputs := s.env.inputs.tail, inputNo := s.env.inputNo + 1 } }

/-- The context `c` becomes the one whose step is taken. -/
def State.select (s : State) (c : Nat) : State := { s with cur := c }

/-- The context number is one of 0 .. AGENTS-1 (10_state.md R14). -/
def State.hasCtx (s : State) (c : Nat) : Bool := decide (c < s.ctxs.length)

/-! ## Host writes (10_state.md R15, R16, R21; 20_memory.md R44) -/

/-- A host write into a bank, none where the buffer has no such byte. The host writes no result, decode, status or poll register
and no byte of PLAIN_BUF (R21). -/
def Ctx.hostWrite (c : Ctx) : HostWrite → Option Ctx
  | .devid v => some { c with args := { c.args with devid := v } }
  | .mfr v => some { c with args := { c.args with mfr := v } }
  | .prod v => some { c with args := { c.args with prod := v } }
  | .cmd v => some { c with args := { c.args with cmd := v } }
  | .data v => some { c with args := { c.args with data := v } }
  | .retries v => some { c with args := { c.args with retries := v } }
  | .repeatCount v => some { c with args := { c.args with repeatCount := v } }
  | .index v => some { c with args := { c.args with index := v } }
  | .time v => some { c with args := { c.args with time := v } }
  | .timeout v => some { c with args := { c.args with timeout := v } }
  | .flags v => some { c with args := { c.args with flags := v } }
  | .bufSelect v => some { c with args := { c.args with bufSelect := v } }
  | .off v => some { c with args := { c.args with off := v } }
  | .len v => some { c with args := { c.args with len := v } }
  | .pip v => some { c with args := { c.args with pip := v } }
  | .recLen v => some { c with recLen := v }
  | .txLen v => some { c with txLen := v }
  | .rxLen v => some { c with rxLen := v }
  | .recByte i v => if i < recMax then some { c with recBuf := Memory.write c.recBuf i v } else none
  | .txByte i v => if i < frameMax then some { c with txBuf := Memory.write c.txBuf i v } else none
  | .rxByte i v => if i < frameMax then some { c with rxBuf := Memory.write c.rxBuf i v } else none

/-- A host write to the bank of context `c` (R44): it stores, and does nothing else. -/
def State.hostWrite (s : State) (c : Nat) (w : HostWrite) : Host.Outcome State Fault Refusal :=
  if s.hasCtx c then
    match (s.select c).ctx.hostWrite w with
    | some b => .next ((s.select c).setCtx b)
    | none => .fault .noSuchByte
  else .fault .noSuchContext

/-! ## Host reads (10_state.md R19, R20, R21, R33; 20_memory.md R44)

A read is a function of the state: it has no side effect. -/

/-- A byte buffer of a bank (10_state.md R16). -/
inductive BufName
  | recBuf
  | txBuf
  | rxBuf
  | plainBuf
  deriving DecidableEq, Repr

/-- A register that a host can read: its own bank's (10_state.md R15 to R20) or a shared status register (R33). -/
inductive HostReg
  | aDevid | aMfr | aProd | aCmd | aData | aRetries | aRepeat | aIndex | aTime | aTimeout | aFlags | aBuf | aOff | aLen | aPip
  | recLen | txLen | rxLen
  | bufByte (b : BufName) (i : Nat)
  | rCrc | rPip | rTs | rSent | rAlready | rCreated
  | rFound | rDevid | rMfr | rProd | rClass | rExt | rJoined | rSeen | rHasCc | rPending | rCmdId | rData | rRetries | rActive
  | rTMode | rTModeKnown | rTLast
  | rHasWake | rAcked | rAssumed | rAssumedCmd | rAssumedData | rAutoCached
  | decValid | decL | decMfr | decProd | decPip | decDevid | decCrc | decNrec
  | recPid (k : Nat) | recCf (k : Nat) | recType (k : Nat) | recValueLen (k : Nat) | recOff (k : Nat)
  | recRaw (k i : Nat) | recIval (k : Nat) | recBp (k : Nat) | recSigned (k : Nat) | recFvalid (k : Nat)
  | status | cmd
  | cntActive | cntPrecached | devCount | rbCount | rbHead | rbTail | gInit | gHeld | gOwner | gFatal
  deriving DecidableEq, Repr

/-- A byte of a buffer, none past its end. -/
def Ctx.bufByte (c : Ctx) (b : BufName) (i : Nat) : Option Byte :=
  match b with
  | .recBuf => if i < recMax then some (Memory.read c.recBuf i) else none
  | .txBuf => if i < frameMax then some (Memory.read c.txBuf i) else none
  | .rxBuf => if i < frameMax then some (Memory.read c.rxBuf i) else none
  | .plainBuf => if i < frameMax then some (Memory.read c.plainBuf i) else none

/-- What a read of a bank's register or a shared status register returns, as a number (R44); none where there is no such byte or
record. -/
def State.readReg (s : State) (c : Ctx) : HostReg → Option Nat
  | .aDevid => some c.args.devid.toNat
  | .aMfr => some c.args.mfr.toNat
  | .aProd => some c.args.prod.toNat
  | .aCmd => some c.args.cmd.toNat
  | .aData => some c.args.data.toNat
  | .aRetries => some c.args.retries.toNat
  | .aRepeat => some c.args.repeatCount.toNat
  | .aIndex => some c.args.index.toNat
  | .aTime => some c.args.time.toNat
  | .aTimeout => some c.args.timeout.toNat
  | .aFlags => some c.args.flags.toNat
  | .aBuf => some c.args.bufSelect.toNat
  | .aOff => some c.args.off.toNat
  | .aLen => some c.args.len.toNat
  | .aPip => some c.args.pip.toNat
  | .recLen => some c.recLen.toNat
  | .txLen => some c.txLen.toNat
  | .rxLen => some c.rxLen.toNat
  | .bufByte b i => (c.bufByte b i).map (·.toNat)
  | .rCrc => some c.rCrc.toNat
  | .rPip => some c.rPip.toNat
  | .rTs => some c.rTs.toNat
  | .rSent => some c.rSent.toNat
  | .rAlready => some c.rAlready.toNat
  | .rCreated => some c.rCreated.toNat
  | .rFound => some c.dev.found.toNat
  | .rDevid => some c.dev.devid.toNat
  | .rMfr => some c.dev.mfr.toNat
  | .rProd => some c.dev.prod.toNat
  | .rClass => some c.dev.cls.toNat
  | .rExt => some c.dev.ext.toNat
  | .rJoined => some c.dev.joined.toNat
  | .rSeen => some c.dev.seen.toNat
  | .rHasCc => some c.dev.hasCc.toNat
  | .rPending => some c.dev.pending.toNat
  | .rCmdId => some c.dev.cmdId.toNat
  | .rData => some c.dev.data.toNat
  | .rRetries => some c.dev.retries.toNat
  | .rActive => some c.dev.active.toNat
  | .rTMode => some c.dev.tMode.toNat
  | .rTModeKnown => some c.dev.tModeKnown.toNat
  | .rTLast => some c.dev.tLast.toNat
  | .rHasWake => some c.post.hasWake.toNat
  | .rAcked => some c.post.acked.toNat
  | .rAssumed => some c.post.assumed.toNat
  | .rAssumedCmd => some c.post.assumedCmd.toNat
  | .rAssumedData => some c.post.assumedData.toNat
  | .rAutoCached => some c.post.autoCached.toNat
  | .decValid => some c.dec.valid.toNat
  | .decL => some c.dec.l.toNat
  | .decMfr => some c.dec.mfr.toNat
  | .decProd => some c.dec.prod.toNat
  | .decPip => some c.dec.pip.toNat
  | .decDevid => some c.dec.devid.toNat
  | .decCrc => some c.dec.crc.toNat
  | .decNrec => some c.dec.nrec.toNat
  | .recPid k => c.dec.recs[k]?.map (·.pid.toNat)
  | .recCf k => c.dec.recs[k]?.map (·.cf.toNat)
  | .recType k => c.dec.recs[k]?.map (·.type.toNat)
  | .recValueLen k => c.dec.recs[k]?.map (·.len.toNat)
  | .recOff k => c.dec.recs[k]?.map (·.off.toNat)
  | .recRaw k i => c.dec.recs[k]?.bind (fun r => r.raw[i]?.map (·.toNat))
  | .recIval k => c.dec.recs[k]?.map (·.ival.toNat)
  | .recBp k => c.dec.recs[k]?.map (·.bp.toNat)
  | .recSigned k => c.dec.recs[k]?.map (·.signed.toNat)
  | .recFvalid k => c.dec.recs[k]?.map (·.fvalid.toNat)
  | .status => some c.status.toNat
  | .cmd => some 0
  | .cntActive => some s.cntActive.toNat
  | .cntPrecached => some s.cntPrecached.toNat
  | .devCount => some s.devCount.toNat
  | .rbCount => some s.ring.count.val
  | .rbHead => some s.ring.head.val
  | .rbTail => some s.ring.tail.val
  | .gInit => some s.gate.init.toNat
  | .gHeld => some s.gate.held.toNat
  | .gOwner => some s.gate.owner.toNat
  | .gFatal => some s.fatal.toNat

/-- What the host of context `c` reads (10_state.md R21): its own bank, and the shared status registers. -/
def State.hostRead (s : State) (c : Nat) (r : HostReg) : Option Nat :=
  match s.ctxs[c]? with
  | some b => s.readReg b r
  | none => none

/-! ## Commands (30_encoding.md R55) -/

/-- The write of a command word is accepted: the context becomes the issuing one and BUSY is set (30_encoding.md R55). A write
while BUSY = 1 is the fault of 60_exceptions.md R158. -/
def State.beginCommand (s : State) (c : Nat) : Except Fault State :=
  if s.hasCtx c then
    if (s.select c).ctx.busy then .error .commandWhileBusy
    else .ok ((s.select c).setCtx { (s.select c).ctx with busy := true })
  else .error .noSuchContext

/-- An illegal command word finishes with ILLEGAL_OP and changes nothing else (30_encoding.md R55, R57). -/
def State.illegal (s : State) : State := s.raise .illegalOp

/-! ## Time and reset -/

/-- NOW advances (10_state.md R37): it never decreases and stays a 64-bit number. -/
def State.tick (s : State) (d : Nat) : State := { s with now := satAdd s.now d }

/-- The platform asserts reset (70_reset_and_hazards.md R166): every piece of state at its reset value, and no port event. The
configuration, NOW and the environment's own choices are inputs, not state (10_state.md R12), and stay. -/
def State.platformReset (s : State) : State := { State.resetWith s.cfg with now := s.now, env := s.env }

end Sys2Proof.Machine
end

