-- ==== Sys2Proof/Machine/Step.lean ====
section
/-! DEFINITION. One step of the machine: the environment's next input, and what the block does with it (20_memory.md R44 to R46).
-/

namespace Sys2Proof.Machine

/-- A write of the word `w` to CMD of context `c` (30_encoding.md R55): BUSY is set, the word is decoded, and the operation, or
ILLEGAL, is performed. -/
def State.command (s : State) (c : Nat) (w : Word) : Host.Outcome State Fault Refusal :=
  match s.beginCommand c with
  | .error f => .fault f
  | .ok s1 =>
    match decode w with
    | .ok i => exec i s1
    | .error _ => .next s1.illegal

/-- The context `c` takes its next step, if one is enabled (20_memory.md R46). -/
def State.proceedAs (s : State) (c : Nat) : Host.Outcome State Fault Refusal :=
  if s.hasCtx c then .next (s.select c).proceed else .fault .noSuchContext

/-- What an input does. -/
def State.take (s : State) : Input → Host.Outcome State Fault Refusal
  | .hostWrite c w => s.hostWrite c w
  | .command c w => s.command c w
  | .proceed c => s.proceedAs c
  | .tick d => .next (s.tick d)
  | .reset => .next s.platformReset

/-- One step: the environment's next input is taken. -/
def step (s : State) : Host.Outcome State Fault Refusal := s.afterInput.take s.nextInput

/-- `s` with the command word of an opcode-table row as its next input: a write of that word to CMD of context 0 (30_encoding.md
R55). The block loads no program (10_state.md R13), so this stands for the host that starts the operation (log 17). -/
def State.withFetchWord (s : State) (nbits w : Nat) : State :=
  { s with env := { s.env with inputs := .command 0 (BitVec.ofNat 32 (w % 2 ^ nbits)) :: s.env.inputs } }

/-- The machine a set of parameters describes, right after reset, or the refusal of one that breaks 00_scope.md R7 or R8
(93_implementation_defined.md I5; 70_reset_and_hazards.md R168: the parameters are fixed before reset). -/
def boot (r : RawConfig) : Host.Outcome State Fault Refusal :=
  match r.check with
  | .ok c => .next (State.resetWith c)
  | .error e => .refused (.badConfig e)

end Sys2Proof.Machine
end

