-- ==== Sys2Proof/Safety.lean ====
section
/-! DEFINITION. The terms that claims use: the invariants that the rules of spec/ state, and spec-side descriptions (the queue of
unread frames, the keystream, the value of a binary32 number, a record on the wire) that the model's functions are compared
with. -/

namespace Sys2Proof.Machine

/-! ## The end of an operation -/

/-- A bank after `finish(e)` (00_scope.md R10): only CODE and BUSY are written. -/
def Ctx.done (c : Ctx) (e : Code) : Ctx := { c with code := e, busy := false }

/-! ## Memory -/

/-- The buffers of a bank in canonical form, and its decode outputs in shape: 28 records of 15 bytes, at most 28 in use
(10_state.md R16, R18). -/
def Ctx.memOk (c : Ctx) : Bool :=
  Memory.wf recMax c.recBuf && Memory.wf frameMax c.txBuf && Memory.wf frameMax c.rxBuf && Memory.wf frameMax c.plainBuf
    && c.dec.recs.length == 28 && decide (c.dec.nrec.toNat ≤ 28) && c.dec.recs.all (fun r => r.raw.length == 15)

/-- `m` is `old` with the bytes `bs` stored from index `off` on, and every other byte as before (00_scope.md R10 MemWrite). -/
def Memory.Stored (size : Nat) (old : Memory) (off : Nat) (bs : List Byte) (m : Memory) : Prop :=
  Memory.wf size m = true ∧ (∀ i b, bs[i]? = some b → Memory.read m (off + i) = b)
    ∧ ∀ a, a < off ∨ off + bs.length ≤ a → Memory.read m a = Memory.read old a

/-- Every bank is in shape. -/
def State.banksOk (s : State) : Bool := s.ctxs.all Ctx.memOk

/-! ## Ring buffer -/

/-- The unread slots, oldest first (43_ring_buffer.md R111, R112). -/
def Ring.unread (r : Ring) : List Slot :=
  (List.range r.count.val).map (fun i => r.slots.getD ((r.tail.val + i) % 5) Slot.reset)

/-- A slot holds at most 67 bytes, and its bytes past LEN are 0 (10_state.md R23, R35). -/
def Slot.ok (e : Slot) : Bool := decide (e.len.toNat ≤ frameMax) && Memory.wf e.len.toNat e.bytes

/-- The ring buffer's invariant (10_state.md R24): five slots, and `RB_HEAD = (RB_TAIL + RB_COUNT) mod 5`. -/
def Ring.ok (r : Ring) : Bool :=
  r.slots.length == 5 && r.head.val == (r.tail.val + r.count.val) % 5 && r.slots.all Slot.ok

/-- A slot that holds the bytes `d` with time stamp `ts` (43_ring_buffer.md R110). -/
def slotOf (d : List Byte) (ts : BitVec 64) : Slot :=
  { bytes := Memory.ofBytes d, len := BitVec.ofNat 7 d.length, ts := ts }

/-! ## Device table and counters -/

/-- An entry with an active command outstanding (10_state.md R27). -/
def Dev.activeOut (e : Dev) : Bool := e.hasCc && e.cc.pending && e.cc.active

/-- An entry with a pre-cached command outstanding (10_state.md R27). -/
def Dev.precachedOut (e : Dev) : Bool := e.hasCc && e.cc.pending && !e.cc.active

/-- The registry holds at most DEV_MAX entries (10_state.md R25). -/
def State.registryFits (s : State) : Bool := decide (s.devs.length ≤ s.cfg.devMax)

/-- The counter invariant (10_state.md R27). -/
def State.countersOk (s : State) : Bool :=
  s.cntActive.toNat == s.devs.countP Dev.activeOut && s.cntPrecached.toNat == s.devs.countP Dev.precachedOut

/-- What every entry keeps: a CachedCommand exactly for class SmallWindow, an extension only with it (10_state.md R25), and an
outstanding command with a pre-built frame of 11 to 67 bytes whose other bytes are 0 (44_retry_sequencer.md R127). -/
def Dev.ok (e : Dev) : Bool :=
  e.hasCc == (e.cls == .smallWindow) && (e.ext == .none || e.hasCc)
    && (!e.cc.pending || (e.hasCc && decide (11 ≤ e.cc.flen.toNat)))
    && decide (e.cc.flen.toNat ≤ frameMax) && Memory.wf e.cc.flen.toNat e.cc.frame

/-- The registry's invariant: entries in shape, and at most one entry for a device ID (10_state.md R25, R28). -/
def State.registryOk (s : State) : Bool := s.devs.all Dev.ok && decide (s.devs.map (·.devid)).Nodup

/-! ## Contexts, gate and polls -/

/-- There are AGENTS contexts, and the issuing one is one of them (10_state.md R14). -/
def State.contextsOk (s : State) : Bool := s.ctxs.length == s.cfg.agents && decide (s.cur < s.ctxs.length)

/-- The gate's invariant (10_state.md R30): a held gate belongs to a context, and the transceiver is initialised. -/
def State.gateOk (s : State) : Bool :=
  !s.gate.held || (s.gate.init && decide (s.gate.owner.toNat < s.ctxs.length))

/-- A receive poll is in progress (10_state.md R22): not OFF, and not the wait of GATE_ACQUIRE. -/
def PollState.polling : PollState → Bool
  | .off => false
  | .gateWait => false
  | .draining => true
  | .decoding => true
  | .inject => true
  | .idle => true

/-- What the poll state of context `n` with bank `c` keeps: `RXS = OFF` exactly when `BUSY = 0` (10_state.md R22); a sleep that
ends by the deadline, and none with timeout 0 (44_retry_sequencer.md R139, R142); INJECT serves a valid entry of a valid decode
(R139); and a poll that started with the gate still has it (R138). -/
def State.pollOk (s : State) (n : Nat) (c : Ctx) : Bool :=
  (c.busy == !(c.poll.rxs == .off))
    && (!(c.poll.rxs == .idle) || (decide (c.poll.wake.toNat ≤ c.poll.deadline.toNat) && !c.poll.zero))
    && (!(c.poll.rxs == .inject) || (decide (c.poll.dev.toNat < s.devs.length) && c.dec.valid))
    && (!(c.poll.rxs.polling && c.poll.owned) || (s.gate.held && s.gate.owner.toNat == n))

/-- Every context's poll state is in order. -/
def State.pollsOk (s : State) : Bool := s.ctxs.zipIdx.all (fun p => s.pollOk p.2 p.1)

/-! ## The port event log -/

/-- Where the transceiver is, as its own events tell it (70_reset_and_hazards.md R169, 45_radio_gate.md R151). -/
inductive PortPhase
  /-- not initialised. -/
  | down
  /-- `initialize` gave Ok, and `set_mode` is next. -/
  | starting
  /-- initialised. -/
  | up
  /-- `has_frame_waiting` gave true, and `read_frame` is next. -/
  | reading
  deriving DecidableEq, Repr

/-- The phase after an event, none for an event that the rules exclude in that phase: the boot order of 70_reset_and_hazards.md
R169, the domains of 60_exceptions.md R163, and `reset` never called. -/
def portNext (mode : RadioMode) : PortPhase → PortEvent → Option PortPhase
  | .down, .initCall ok => some (if ok then .starting else .down)
  | .starting, .setMode m => if m = mode then some .up else none
  | .up, .transmit p n _ => if n = p.length ∧ 1 ≤ n ∧ n ≤ 67 then some .up else none
  | .up, .hasFrameWaiting w => some (if w then .reading else .up)
  | .reading, .readFrame n (.ok d) => if n = 67 ∧ d.length ≤ 67 then some .up else none
  | .reading, .readFrame n .err => if n = 67 then some .up else none
  | .up, .shutdown => some .down
  | _, _ => none

/-- The phase after a log, from `p` on. -/
def portRun (mode : RadioMode) (p : PortPhase) : List PortEvent → Option PortPhase
  | [] => some p
  | e :: es =>
    match portNext mode p e with
    | some q => portRun mode q es
    | none => none

/-- The log is one that the rules allow, and G_INIT says whether the transceiver is up at its end. -/
def State.portOk (s : State) : Bool :=
  portRun s.cfg.defaultMode .down s.events == some (if s.gate.init then .up else .down)

/-- The event needs the gate (45_radio_gate.md R151): `transmit`, `has_frame_waiting` and `read_frame`. -/
def PortEvent.needsGate : PortEvent → Bool
  | .transmit _ _ _ => true
  | .hasFrameWaiting _ => true
  | .readFrame _ _ => true
  | .initCall _ => false
  | .setMode _ => false
  | .reset => false
  | .shutdown => false

/-! ## What an input names -/

/-- The context whose host acts, or whose step is taken; none for time and reset. -/
def inputContext : Input → Option Nat
  | .hostWrite c _ => some c
  | .command c _ => some c
  | .proceed c => some c
  | .tick _ => none
  | .reset => none

/-- The register or buffer byte that a host write names (20_memory.md R44). -/
def writeTarget : HostWrite → HostReg
  | .devid _ => .aDevid
  | .mfr _ => .aMfr
  | .prod _ => .aProd
  | .cmd _ => .aCmd
  | .data _ => .aData
  | .retries _ => .aRetries
  | .repeatCount _ => .aRepeat
  | .index _ => .aIndex
  | .time _ => .aTime
  | .timeout _ => .aTimeout
  | .flags _ => .aFlags
  | .bufSelect _ => .aBuf
  | .off _ => .aOff
  | .len _ => .aLen
  | .pip _ => .aPip
  | .recLen _ => .recLen
  | .txLen _ => .txLen
  | .rxLen _ => .rxLen
  | .recByte i _ => .bufByte .recBuf i
  | .txByte i _ => .bufByte .txBuf i
  | .rxByte i _ => .bufByte .rxBuf i

/-- The number that a host write stores. -/
def writeValue : HostWrite → Nat
  | .devid v => v.toNat
  | .mfr v => v.toNat
  | .prod v => v.toNat
  | .cmd v => v.toNat
  | .data v => v.toNat
  | .retries v => v.toNat
  | .repeatCount v => v.toNat
  | .index v => v.toNat
  | .time v => v.toNat
  | .timeout v => v.toNat
  | .flags v => v.toNat
  | .bufSelect v => v.toNat
  | .off v => v.toNat
  | .len v => v.toNat
  | .pip v => v.toNat
  | .recLen v => v.toNat
  | .txLen v => v.toNat
  | .rxLen v => v.toNat
  | .recByte _ v => v.toNat
  | .txByte _ v => v.toNat
  | .rxByte _ v => v.toNat

/-- The buffer byte that a host write names exists (10_state.md R16). -/
def writeExists : HostWrite → Bool
  | .recByte i _ => decide (i < 56)
  | .txByte i _ => decide (i < 67)
  | .rxByte i _ => decide (i < 67)
  | _ => true

/-- The register, buffer byte or decoded record exists (10_state.md R16, R18). -/
def regExists : HostReg → Bool
  | .bufByte .recBuf i => decide (i < 56)
  | .bufByte .txBuf i => decide (i < 67)
  | .bufByte .rxBuf i => decide (i < 67)
  | .bufByte .plainBuf i => decide (i < 67)
  | .recPid k => decide (k < 28)
  | .recCf k => decide (k < 28)
  | .recType k => decide (k < 28)
  | .recValueLen k => decide (k < 28)
  | .recOff k => decide (k < 28)
  | .recRaw k i => decide (k < 28) && decide (i < 15)
  | .recIval k => decide (k < 28)
  | .recBp k => decide (k < 28)
  | .recSigned k => decide (k < 28)
  | .recFvalid k => decide (k < 28)
  | _ => true

/-! ## Cipher, data and records as the rules describe them -/

/-- The keystream byte `K(pip, i)` (40_crc_cipher.md R79). -/
def keyByte (key : Byte) (pip : BitVec 16) (i : Nat) : Byte :=
  (Nat.iterate cipherBit (5 * (i + 1)) (cipherSeed key pip)).setWidth 8 ^^^ 0x5A#8

/-- The exact value of a finite binary32 pattern (30_encoding.md R58): sign in bit 31, biased exponent in bits 30 to 23, fraction
in bits 22 to 0. -/
def dataValue (d : BitVec 32) : ℚ :=
  let e := (d.extractLsb' 23 8).toNat
  let f : ℚ := ((d.extractLsb' 0 23).toNat : ℚ)
  let m : ℚ := if e = 0 then f / 2 ^ 149 else (2 ^ 23 + f) * 2 ^ e / 2 ^ 150
  if d.getLsbD 31 then -m else m

/-- `n = trunc(x)`: rounding toward zero (41_frame_encoder.md R84). -/
def isTrunc (x : ℚ) (n : ℤ) : Prop := |x - n| < 1 ∧ |(n : ℚ)| ≤ |x| ∧ 0 ≤ x * n

/-- A record on the wire (30_encoding.md R67): command flag, param id, type nibble, value bytes. -/
structure WireRecord where
  cf : Bool
  pid : BitVec 7
  type : BitVec 4
  value : List Byte
  deriving DecidableEq, Repr

/-- The bytes of a record (30_encoding.md R67). -/
def WireRecord.bytes (r : WireRecord) : List Byte :=
  [BitVec.ofBool r.cf ++ r.pid, r.type ++ BitVec.ofNat 4 r.value.length] ++ r.value

/-- A record that a decoder takes (42_frame_decoder.md R97): a param id that is not 0, and a value of at most 15 bytes. -/
def WireRecord.ok (r : WireRecord) : Bool := !(r.pid == 0) && decide (r.value.length ≤ 15)

/-- The integer a record's value encodes (30_encoding.md R68). -/
def wireInt (t : BitVec 4) (v : List Byte) : ℤ :=
  if (8 ≤ t.toNat ∧ t.toNat ≤ 11) ∧ 128 ≤ (v.headD 0).toNat then (beNat v : ℤ) - 2 ^ (8 * v.length) else beNat v

/-- A decoded record is what the rules give for a record on the wire whose value starts at index `off` (42_frame_decoder.md R99
to R104). -/
def DecRec.Describes (d : DecRec) (r : WireRecord) (off : Nat) : Prop :=
  d.pid = r.pid ∧ d.cf = r.cf ∧ d.type = r.type ∧ d.len.toNat = r.value.length ∧ d.off.toNat = off
    ∧ d.raw = r.value ++ List.replicate (15 - r.value.length) 0 ∧ d.ival.toInt = wireInt r.type r.value
    ∧ d.bp.toNat = typeBp r.type ∧ d.signed = typeSigned r.type ∧ d.fvalid = !typeReserved r.type

/-- The decoded records `out` are what the rules give for the wire records `rs`, the first of which starts at index `i`
(42_frame_decoder.md R97, R99). -/
def DecodedAs (out : List DecRec) (rs : List WireRecord) (i : Nat) : Prop :=
  out.length = rs.length
    ∧ ∀ k r, rs[k]? = some r →
        ∃ d : DecRec, out[k]? = some d ∧ d.Describes r (i + ((rs.take k).flatMap WireRecord.bytes).length + 2)

/-- The value bytes of an encoded record and the state after its draw, if it made one (41_frame_encoder.md R87): the bytes of R85
where they are defined, drawn bytes (R86) where they are not. -/
def ValueBytes (s : State) (r : CmdRow) (d : BitVec 32) (v : List Byte) (u : State) : Prop :=
  (encValue r d = some v ∧ u = s) ∨ (encValue r d = none ∧ v = s.valueBytes r.len.toNat ∧ u = s.afterValueBytes)

/-- The bytes of the record that encodes a command (41_frame_encoder.md R87): command flag 1. -/
def commandBytes (r : CmdRow) (v : List Byte) : List Byte :=
  WireRecord.bytes { cf := true, pid := r.pid, type := intTypeCode r.type, value := v }

/-- `n` times the operation `i` of the issuing context, none where it does not complete. -/
def State.repeatOp (i : Instr) : Nat → State → Option State
  | 0, s => some s
  | n + 1, s =>
    match exec i s with
    | .next t => State.repeatOp i n t
    | .fault _ => none
    | .refused _ => none

/-- The bank of the context whose step is taken, replaced in a list of banks. -/
def State.graft (s : State) (others : List Ctx) : State := { s with ctxs := others.set s.cur s.ctx }

end Sys2Proof.Machine
end

