-- ==== Sys2Proof/Certificates/Slice0/Obligations.lean ====
section
/-! DEFINITION. The statements for the provers. Each docstring names the rules of spec/ that a statement formalises. In most of
them `c` is the bank of the issuing context of `s`, and an equation `exec i s = .next t` gives the whole next state: what the
equation does not write is unchanged. -/

open Sys2Proof Sys2Proof.Machine

/-! ## Command words -/

/-- 30_encoding.md R54 to R57: a word selects an operation exactly if it is that operation's encoding. -/
def Obligations.DecodeIffEncode : Prop :=
  ∀ (w : Word) (i : Instr), decode w = .ok i ↔ w = encode i

/-- 30_encoding.md R56: words written out from the opcode map. -/
def Obligations.DecodeWords : Prop :=
  decode 0x00000000#32 = .ok .nop ∧ decode 0x00000001#32 = .ok .crc16 ∧ decode 0x00000004#32 = .ok .buildFrame
    ∧ decode 0x00000005#32 = .ok .decodeFrame ∧ decode 0x00000011#32 = .ok .rbPop ∧ decode 0x00000023#32 = .ok .cacheCmd
    ∧ decode 0x00000026#32 = .ok .rxPoll ∧ decode 0x00000030#32 = .ok .gateAcquire ∧ decode 0x00000032#32 = .ok .shutdown

/-- 30_encoding.md R57: which words are illegal, and what one does. -/
def Obligations.IllegalWords : Prop :=
  (∀ w : Word, (∃ e, decode w = .error e) ↔
      (w.toNat / 256 ≠ 0 ∨ (0x07 ≤ w.toNat % 256 ∧ w.toNat % 256 ≤ 0x0F) ∨ (0x14 ≤ w.toNat % 256 ∧ w.toNat % 256 ≤ 0x1F)
        ∨ (0x27 ≤ w.toNat % 256 ∧ w.toNat % 256 ≤ 0x2F) ∨ 0x33 ≤ w.toNat % 256))
    ∧ ∀ (s : State) (n : Nat) (w : Word) (c : Ctx), s.nextInput = .command n w → s.ctxs[n]? = some c → c.busy = false →
        (∃ e, decode w = .error e) →
        step s = .next (({ s.afterInput with cur := n } : State).setCtx (c.done .illegalOp))

/-- 30_encoding.md R55, 60_exceptions.md R158: a write of a legal word to CMD of an idle context sets BUSY and performs the
operation; a write to CMD of a busy context is a fault. The last clause is the model's choice (log 17): `withFetchWord` stands for
a host's write of the word to CMD of context 0, lined up as the next input. -/
def Obligations.StepRunsDecoded : Prop :=
  (∀ (s : State) (n : Nat) (w : Word) (i : Instr) (c : Ctx), s.nextInput = .command n w → s.ctxs[n]? = some c →
      c.busy = false → decode w = .ok i →
      step s = exec i (({ s.afterInput with cur := n } : State).setCtx { c with busy := true }))
    ∧ (∀ (s : State) (n : Nat) (w : Word) (c : Ctx), s.nextInput = .command n w → s.ctxs[n]? = some c → c.busy = true →
      step s = .fault .commandWhileBusy)
    ∧ ∀ (s : State) (w : Nat), (s.withFetchWord 32 w).nextInput = .command 0 (BitVec.ofNat 32 w)
        ∧ (s.withFetchWord 32 w).ctxs = s.ctxs

/-- 20_memory.md R45, 30_encoding.md R55: every operation but GATE_ACQUIRE and RX_POLL finishes in its one step, with BUSY = 0,
and touches no poll state. -/
def Obligations.SingleStepOperationsFinish : Prop :=
  ∀ (i : Instr) (s : State) (c : Ctx), s.ctxs[s.cur]? = some c → i ≠ .gateAcquire → i ≠ .rxPoll →
    ∃ t d, exec i s = .next t ∧ t.cur = s.cur ∧ t.ctxs[s.cur]? = some d ∧ d.busy = false ∧ d.poll = c.poll ∧ d.args = c.args

/-! ## Reset and configuration -/

/-- 10_state.md R38, 70_reset_and_hazards.md R167: after reset every register, length, byte and status a host reads is 0, the poll
states and slots are 0, and the log is empty. -/
def Obligations.ResetValues : Prop :=
  ∀ cfg : Config,
    (State.resetWith cfg).ctxs.length = cfg.agents
      ∧ (∀ n reg, n < cfg.agents → regExists reg = true → (State.resetWith cfg).hostRead n reg = some 0)
      ∧ (∀ (n : Nat) (c : Ctx), (State.resetWith cfg).ctxs[n]? = some c →
          c.poll = { rxs := .off, deadline := 0, wake := 0, zero := false, owned := false, dev := 0 })
      ∧ (State.resetWith cfg).ring.slots.length = 5
      ∧ (∀ e ∈ (State.resetWith cfg).ring.slots, e.len = 0 ∧ e.ts = 0 ∧ ∀ a, Memory.read e.bytes a = 0)
      ∧ (State.resetWith cfg).devs = [] ∧ (State.resetWith cfg).events = []

/-- 70_reset_and_hazards.md R166, R168: a platform reset, at any point, puts every piece of state at its reset value and makes no
port event; the configuration, NOW and the environment's choices are no state of the block (10_state.md R12). That NOW and the
environment's choices go on is the model's choice (log 6). -/
def Obligations.PlatformReset : Prop :=
  ∀ s : State, s.nextInput = .reset →
    ∃ t, step s = .next t ∧ t.cfg = s.cfg ∧ t.ctxs = List.replicate s.cfg.agents Ctx.reset ∧ t.ring = Ring.reset ∧ t.devs = []
      ∧ t.cntActive = 0 ∧ t.cntPrecached = 0 ∧ t.gate = { init := false, held := false, owner := 0 } ∧ t.fatal = false
      ∧ t.events = [] ∧ t.now = s.now ∧ t.env = s.afterInput.env

/-- 00_scope.md R7, R8: the block comes up exactly for the configurations that meet the ranges, with every parameter it was given
and the state of reset. The range of CMD_THERM_MODE is that of 92_eei_decisions.md (log 14). -/
def Obligations.BootAcceptsWellFormed : Prop :=
  ∀ r : RawConfig,
    ((∃ s, boot r = .next s) ↔
      ((1 ≤ r.devMax ∧ r.devMax ≤ 65535) ∧ (1 ≤ r.agents ∧ r.agents ≤ 255)
        ∧ (∀ q ∈ r.cmdTable, (1 ≤ q.id ∧ q.id ≤ 255) ∧ (1 ≤ q.pid ∧ q.pid ≤ 127)
            ∧ (q.type ≤ 6 ∨ (8 ≤ q.type ∧ q.type ≤ 11)) ∧ q.len ≤ 15)
        ∧ (∀ q ∈ r.productTable, q.ext ≠ .none → q.cls = .smallWindow)
        ∧ (1 ≤ r.paramWakeup ∧ r.paramWakeup ≤ 127) ∧ (1 ≤ r.cmdThermMode ∧ r.cmdThermMode ≤ 255)
        ∧ (1 ≤ r.autoRetries ∧ r.autoRetries ≤ 255) ∧ 1 ≤ r.sleepShort ∧ 1 ≤ r.sleepLong))
    ∧ ∀ s, boot r = .next s →
        s = State.resetWith s.cfg ∧ s.cfg.devMax = r.devMax ∧ s.cfg.agents = r.agents ∧ s.cfg.cryptKey = r.cryptKey
          ∧ s.cfg.mfrDefault = r.mfrDefault ∧ s.cfg.ackTable = r.ackTable ∧ s.cfg.noEchoCmds = r.noEchoCmds
          ∧ s.cfg.cmdThermMode.toNat = r.cmdThermMode ∧ s.cfg.modeGateway = r.modeGateway
          ∧ s.cfg.telemetryPeriod = r.telemetryPeriod ∧ s.cfg.txRepeat = r.txRepeat ∧ s.cfg.timeUnit = r.timeUnit
          ∧ s.cfg.defaultMode = r.defaultMode ∧ s.cfg.busMap = r.busMap ∧ s.cfg.autoRetries.toNat = r.autoRetries
          ∧ s.cfg.paramWakeup.toNat = r.paramWakeup
          ∧ s.cfg.sleepShort = r.sleepShort ∧ s.cfg.sleepLong = r.sleepLong
          ∧ s.cfg.cmdTable.map (fun q => (q.id.toNat, q.pid.toNat, (intTypeCode q.type).toNat, q.len.toNat))
              = r.cmdTable.map (fun q => (q.id, q.pid, q.type, q.len))
          ∧ s.cfg.productTable.map (fun q => (q.prod, kindClass q.kind, kindExt q.kind, q.wakeGated))
              = r.productTable.map (fun q => (q.prod, q.cls, q.ext, q.wakeGated))

/-! ## Host accesses -/

/-- 20_memory.md R44, 10_state.md R21: a host write stores its value in the register or byte of its own context that it names,
and nothing else changes, in any context or shared state. The first clause is the model's choice (log 12, DESIGN CHOICE): the spec
gives no effect to a write of a buffer byte past the buffer's end (10_state.md R16), and the model ends it in the fault
`noSuchByte`. -/
def Obligations.HostWriteOnlyStores : Prop :=
  ∀ (s : State) (n : Nat) (w : HostWrite) (c : Ctx), s.nextInput = .hostWrite n w → s.ctxs[n]? = some c → c.memOk = true →
    (writeExists w = false → step s = .fault .noSuchByte)
      ∧ (writeExists w = true →
          ∃ t d, step s = .next t ∧ t.ctxs = s.ctxs.set n d ∧ d.memOk = true ∧ d.poll = c.poll
            ∧ (∀ reg, t.hostRead n reg = if reg = writeTarget w then some (writeValue w) else s.hostRead n reg)
            ∧ (t.cfg, t.ring, t.devs, t.cntActive, t.cntPrecached, t.gate) = (s.cfg, s.ring, s.devs, s.cntActive, s.cntPrecached, s.gate)
            ∧ (t.fatal, t.events, t.now) = (s.fatal, s.events, s.now))

/-- 10_state.md R19, R15 to R18, R20, R33, 60_exceptions.md R152, 20_memory.md R44: what a host reads in its own context. STATUS is the
number of CODE in bits [7:0] and BUSY in bit [8], with every other bit 0; every other register reads as its field's number, and a
buffer byte as that byte. IVAL reads as its 128-bit pattern. -/
def Obligations.HostReadResult : Prop :=
  ∀ (s : State) (n : Nat) (c : Ctx), s.ctxs[n]? = some c →
    (∀ q ∈ [(Code.ok, 0), (.frameLen, 1), (.crcMismatch, 2), (.unknownCommand, 3), (.deviceNotCacheable, 4),
          (.cancelUnknownDevice, 5), (.lockUnavailable, 6), (.capacityExceeded, 7), (.empty, 8), (.noMessage, 9),
          (.notLockOwner, 10), (.illegalOp, 11), (.badOperand, 12), (.recordBufferFull, 13), (.notFound, 14)],
        c.code = q.1 → s.hostRead n .status = some ((if c.busy then 256 else 0) + q.2))
      ∧ s.hostRead n .cmd = some 0
      ∧ (∀ p ∈ [(HostReg.aDevid, c.args.devid.toNat), (.aMfr, c.args.mfr.toNat), (.aProd, c.args.prod.toNat),
          (.aCmd, c.args.cmd.toNat), (.aData, c.args.data.toNat), (.aRetries, c.args.retries.toNat),
          (.aRepeat, c.args.repeatCount.toNat), (.aIndex, c.args.index.toNat), (.aTime, c.args.time.toNat),
          (.aTimeout, c.args.timeout.toNat), (.aFlags, c.args.flags.toNat), (.aBuf, c.args.bufSelect.toNat),
          (.aOff, c.args.off.toNat), (.aLen, c.args.len.toNat), (.aPip, c.args.pip.toNat), (.recLen, c.recLen.toNat),
          (.txLen, c.txLen.toNat), (.rxLen, c.rxLen.toNat)], s.hostRead n p.1 = some p.2)
      ∧ (∀ i, (i < 56 → s.hostRead n (.bufByte .recBuf i) = some (Memory.read c.recBuf i).toNat)
          ∧ (i < 67 → s.hostRead n (.bufByte .txBuf i) = some (Memory.read c.txBuf i).toNat
            ∧ s.hostRead n (.bufByte .rxBuf i) = some (Memory.read c.rxBuf i).toNat
            ∧ s.hostRead n (.bufByte .plainBuf i) = some (Memory.read c.plainBuf i).toNat))
      ∧ (∀ p ∈ [(HostReg.rCrc, c.rCrc.toNat), (.rPip, c.rPip.toNat), (.rTs, c.rTs.toNat), (.rSent, c.rSent.toNat),
          (.rAlready, c.rAlready.toNat), (.rCreated, c.rCreated.toNat), (.rFound, c.dev.found.toNat), (.rDevid, c.dev.devid.toNat),
          (.rMfr, c.dev.mfr.toNat), (.rProd, c.dev.prod.toNat), (.rClass, c.dev.cls.toNat), (.rExt, c.dev.ext.toNat),
          (.rJoined, c.dev.joined.toNat), (.rSeen, c.dev.seen.toNat), (.rHasCc, c.dev.hasCc.toNat),
          (.rPending, c.dev.pending.toNat), (.rCmdId, c.dev.cmdId.toNat), (.rData, c.dev.data.toNat),
          (.rRetries, c.dev.retries.toNat), (.rActive, c.dev.active.toNat), (.rTMode, c.dev.tMode.toNat),
          (.rTModeKnown, c.dev.tModeKnown.toNat), (.rTLast, c.dev.tLast.toNat), (.rHasWake, c.post.hasWake.toNat),
          (.rAcked, c.post.acked.toNat), (.rAssumed, c.post.assumed.toNat), (.rAssumedCmd, c.post.assumedCmd.toNat),
          (.rAssumedData, c.post.assumedData.toNat), (.rAutoCached, c.post.autoCached.toNat)], s.hostRead n p.1 = some p.2)
      ∧ (∀ p ∈ [(HostReg.decValid, c.dec.valid.toNat), (.decL, c.dec.l.toNat), (.decMfr, c.dec.mfr.toNat),
          (.decProd, c.dec.prod.toNat), (.decPip, c.dec.pip.toNat), (.decDevid, c.dec.devid.toNat), (.decCrc, c.dec.crc.toNat),
          (.decNrec, c.dec.nrec.toNat)], s.hostRead n p.1 = some p.2)
      ∧ (∀ (k : Nat) (r : DecRec), c.dec.recs[k]? = some r →
          (∀ p ∈ [(HostReg.recPid k, r.pid.toNat), (.recCf k, r.cf.toNat), (.recType k, r.type.toNat), (.recValueLen k, r.len.toNat),
            (.recOff k, r.off.toNat), (.recIval k, r.ival.toNat), (.recBp k, r.bp.toNat), (.recSigned k, r.signed.toNat),
            (.recFvalid k, r.fvalid.toNat)], s.hostRead n p.1 = some p.2)
          ∧ ∀ i b, r.raw[i]? = some b → s.hostRead n (.recRaw k i) = some b.toNat)
      ∧ (∀ p ∈ [(HostReg.cntActive, s.cntActive.toNat), (.cntPrecached, s.cntPrecached.toNat), (.rbCount, s.ring.count.val),
          (.rbHead, s.ring.head.val), (.rbTail, s.ring.tail.val), (.gInit, s.gate.init.toNat), (.gHeld, s.gate.held.toNat),
          (.gOwner, s.gate.owner.toNat), (.gFatal, s.fatal.toNat)], s.hostRead n p.1 = some p.2)
      ∧ (s.devs.length ≤ 65535 → s.hostRead n .devCount = some s.devs.length)

/-! ## CRC-16 and stream cipher -/

/-- 40_crc_cipher.md R74, R75: how a byte enters the CRC register; the corner cases and the check value; the two one-byte CRCs
show that no bit is reflected. -/
def Obligations.CrcCornerCases : Prop :=
  (∀ (bs : List Byte) (b : Byte),
      crc16 (bs ++ [b]) = Nat.iterate (fun c : BitVec 16 => if c.getLsbD 15 then (c <<< 1) ^^^ 0x1021#16 else c <<< 1) 8
        (crc16 bs ^^^ (b.setWidth 16 <<< 8)))
    ∧ crc16 [] = 0x0000#16 ∧ (∀ n, crc16 (List.replicate n 0) = 0x0000#16)
    ∧ crc16 [0x31, 0x32, 0x33, 0x34, 0x35, 0x36, 0x37, 0x38, 0x39] = 0x31C3#16
    ∧ crc16 [0x01] = 0x1021#16 ∧ crc16 [0x80] = 0x9188#16

/-- 40_crc_cipher.md R77, R78, R79: the seed and the round as numbers, the keystream bytes that they give, and that the keystream
does not depend on the data. The four keystreams are V-CI-1 to V-CI-4 of 95_test_vectors.md, with CRYPT_KEY = 242. -/
def Obligations.KeystreamIndependentOfData : Prop :=
  (∀ (key : Byte) (pip : BitVec 16), (cipherSeed key pip).toNat = (key.toNat * 256) ^^^ pip.toNat)
    ∧ (∀ r : BitVec 16, (cipherBit r).toNat = if r.toNat % 2 = 1 then (r.toNat / 2) ^^^ 0xF5B5 else r.toNat / 2)
    ∧ (∀ (key : Byte) (pip : BitVec 16) (i : Nat),
        keyByte key pip i = (Nat.iterate cipherBit (5 * (i + 1)) (cipherSeed key pip)).extractLsb' 0 8 ^^^ 0x5A#8)
    ∧ (List.range 8).map (keyByte 242 0x0100) = [0xC2#8, 0xBC#8, 0x8E#8, 0xAB#8, 0xDD#8, 0x18#8, 0xC1#8, 0x70#8]
    ∧ (List.range 8).map (keyByte 242 0x0000) = [0xCA#8, 0xD3#8, 0xAC#8, 0x63#8, 0x54#8, 0x2E#8, 0xE6#8, 0xA7#8]
    ∧ (List.range 8).map (keyByte 242 0xFFFF) = [0xD9#8, 0x2A#8, 0xFC#8, 0xD4#8, 0x52#8, 0x2D#8, 0xBA#8, 0x45#8]
    ∧ (List.range 8).map (keyByte 242 0x1234) = [0xEC#8, 0xE9#8, 0x3E#8, 0xF3#8, 0x8D#8, 0x47#8, 0x9F#8, 0xD3#8] ∧
  ∀ (key : Byte) (pip : BitVec 16) (bs : List Byte),
    (crypt key pip bs).length = bs.length ∧ ∀ i b, bs[i]? = some b → (crypt key pip bs)[i]? = some (b ^^^ keyByte key pip i)

/-- 40_crc_cipher.md R80: the same function encrypts and decrypts. -/
def Obligations.CipherSymmetry : Prop :=
  ∀ (key : Byte) (pip : BitVec 16) (bs : List Byte), crypt key pip (crypt key pip bs) = bs

/-- 40_crc_cipher.md R81: a zero seed, and no other, keeps the cipher state at 0. -/
def Obligations.ZeroSeed : Prop :=
  ∀ (key : Byte) (pip : BitVec 16),
    (cipherSeed key pip = 0 ↔ pip = key.setWidth 16 <<< 8)
      ∧ (cipherSeed key pip = 0 → (∀ i, Nat.iterate cipherBit i (cipherSeed key pip) = 0) ∧ (∀ i, keyByte key pip i = 0x5A#8)
          ∧ ∀ bs, crypt key pip bs = bs.map (fun b => b ^^^ 0x5A#8))
      ∧ (cipherSeed key pip ≠ 0 → ∀ i, Nat.iterate cipherBit i (cipherSeed key pip) ≠ 0)

/-- 40_crc_cipher.md R82 and section 3: CRC16, and the buffer that each value of A_BUF selects. -/
def Obligations.Crc16Result : Prop :=
  decode 0x01#32 = .ok .crc16
    ∧ (∀ c : Ctx, c.buf 0 = c.recBuf ∧ c.buf 1 = c.txBuf ∧ c.buf 2 = c.rxBuf ∧ c.buf 3 = c.plainBuf) ∧
  ∀ (s : State) (c : Ctx), s.ctxs[s.cur]? = some c →
    (c.args.off.toNat + c.args.len.toNat ≤ (if c.args.bufSelect = 0 then 56 else 67) →
        exec .crc16 s = .next (s.setCtx
          (Ctx.done { c with rCrc := crc16 (Memory.readRange (c.buf c.args.bufSelect) c.args.off.toNat c.args.len.toNat) } .ok)))
      ∧ ((if c.args.bufSelect = 0 then 56 else 67) < c.args.off.toNat + c.args.len.toNat →
        exec .crc16 s = .next (s.setCtx (c.done .badOperand)))

/-- 40_crc_cipher.md R83, R79: CIPHER XORs each byte of the range with its keystream byte, whatever A_OFF is, and every other byte
and every length register is unchanged. The buffer that A_BUF selects is the one that is read and the one that is written. -/
def Obligations.CipherResult : Prop :=
  decode 0x02#32 = .ok .cipher
    ∧ (∀ (c : Ctx) (m : Memory), c.setBuf 0 m = { c with recBuf := m } ∧ c.setBuf 1 m = { c with txBuf := m }
        ∧ c.setBuf 2 m = { c with rxBuf := m } ∧ c.setBuf 3 m = { c with plainBuf := m })
    ∧ (∀ c : Ctx, c.buf 0 = c.recBuf ∧ c.buf 1 = c.txBuf ∧ c.buf 2 = c.rxBuf ∧ c.buf 3 = c.plainBuf) ∧
  ∀ (s : State) (c : Ctx), s.ctxs[s.cur]? = some c →
    (Memory.wf (if c.args.bufSelect = 0 then 56 else 67) (c.buf c.args.bufSelect) = true →
        c.args.off.toNat + c.args.len.toNat ≤ (if c.args.bufSelect = 0 then 56 else 67) →
        ∃ m bs, exec .cipher s = .next (s.setCtx ((c.setBuf c.args.bufSelect m).done .ok)) ∧ bs.length = c.args.len.toNat
          ∧ (∀ i b, bs[i]? = some b →
              b = Memory.read (c.buf c.args.bufSelect) (c.args.off.toNat + i) ^^^ keyByte s.cfg.cryptKey c.args.pip i)
          ∧ Memory.Stored (if c.args.bufSelect = 0 then 56 else 67) (c.buf c.args.bufSelect) c.args.off.toNat bs m)
      ∧ ((if c.args.bufSelect = 0 then 56 else 67) < c.args.off.toNat + c.args.len.toNat →
        exec .cipher s = .next (s.setCtx (c.done .badOperand)))

/-! ## Frame encoder -/

/-- 41_frame_encoder.md R84, R85: the value bytes. `n` is the data value times 2^BP rounded toward zero. In range, the LEN bytes
encode `n` (30_encoding.md R68); out of range, or for a NaN or an infinity, the function gives no bytes, so that they are drawn
(R86); with LEN = 0 there are none. First the numbers of the type table (30_encoding.md R70): code, binary point, signed, reserved;
and the codes of the types that a command may have. -/
def Obligations.EncodedValue : Prop :=
  (∀ t : BitVec 4, (t.toNat, typeBp t, typeSigned t, typeReserved t) ∈
      [(0x0, 0, false, false), (0x1, 4, false, false), (0x2, 8, false, false), (0x3, 12, false, false), (0x4, 16, false, false),
        (0x5, 20, false, false), (0x6, 24, false, false), (0x7, 0, false, false), (0x8, 0, true, false), (0x9, 8, true, false),
        (0xA, 16, true, false), (0xB, 24, true, false), (0xC, 0, false, true), (0xD, 0, false, true), (0xE, 0, false, true),
        (0xF, 0, false, true)])
    ∧ [IntType.uint, .uintBP4, .uintBP8, .uintBP12, .uintBP16, .uintBP20, .uintBP24, .sint, .sintBP8, .sintBP16, .sintBP24].map
        (fun t => (intTypeCode t).toNat) = [0x0, 0x1, 0x2, 0x3, 0x4, 0x5, 0x6, 0x8, 0x9, 0xA, 0xB] ∧
  ∀ (r : CmdRow) (d : BitVec 32),
    (r.len = 0 → encValue r d = some [])
      ∧ (r.len ≠ 0 → d.extractLsb' 23 8 = 255#8 → encValue r d = none)
      ∧ (r.len ≠ 0 → d.extractLsb' 23 8 ≠ 255#8 →
          ∃ n : ℤ, isTrunc (dataValue d * 2 ^ typeBp (intTypeCode r.type)) n
            ∧ ((if typeSigned (intTypeCode r.type) then -2 ^ (8 * r.len.toNat - 1) ≤ n ∧ n < 2 ^ (8 * r.len.toNat - 1)
                  else 0 ≤ n ∧ n < 2 ^ (8 * r.len.toNat)) →
                ∃ v, encValue r d = some v ∧ v.length = r.len.toNat ∧ (beNat v : ℤ) = n % 2 ^ (8 * r.len.toNat)
                  ∧ wireInt (intTypeCode r.type) v = n)
            ∧ (¬(if typeSigned (intTypeCode r.type) then -2 ^ (8 * r.len.toNat - 1) ≤ n ∧ n < 2 ^ (8 * r.len.toNat - 1)
                  else 0 ≤ n ∧ n < 2 ^ (8 * r.len.toNat)) →
                encValue r d = none))

/-- 41_frame_encoder.md R89: decoding an encoded record gives back the integer that was sent, and a float view that differs from
the data value by less than 2^-BP and has the same sign or is 0. -/
def Obligations.RecordRoundTrip : Prop :=
  ∀ (r : CmdRow) (d : BitVec 32) (v : List Byte), r.len ≠ 0 → encValue r d = some v →
    ∃ n : ℤ, (recordAt (commandBytes r v) 0).ival.toInt = n
      ∧ isTrunc (dataValue d * 2 ^ (recordAt (commandBytes r v) 0).bp.toNat) n
      ∧ |dataValue d - n / 2 ^ (recordAt (commandBytes r v) 0).bp.toNat| < 1 / 2 ^ (recordAt (commandBytes r v) 0).bp.toNat
      ∧ 0 ≤ dataValue d * n
      ∧ (recordAt (commandBytes r v) 0).pid = r.pid ∧ (recordAt (commandBytes r v) 0).cf = true

/-- 41_frame_encoder.md R90, R87, 60_exceptions.md R155: ENC_RECORD, with its errors in their order. The value bytes `v` are those
of R85, or, where R86 gives none, the ones drawn: nothing is said of their values. At the end what
CMD_TABLE says of a command id (30_encoding.md R73): the one row of that id, nothing for an id without a row, nothing for id 0. -/
def Obligations.EncRecordResult : Prop :=
  decode 0x03#32 = .ok .encRecord ∧
  (∀ (s : State) (c : Ctx), s.ctxs[s.cur]? = some c → Memory.wf 56 c.recBuf = true →
      (56 < c.recLen.toNat → exec .encRecord s = .next (s.setCtx (c.done .badOperand)))
        ∧ (c.recLen.toNat ≤ 56 → cmdLookup s.cfg c.args.cmd = none →
          exec .encRecord s = .next (s.setCtx (c.done .unknownCommand)))
        ∧ (∀ (r : CmdRow) (v : List Byte) (u : State), c.recLen.toNat ≤ 56 → cmdLookup s.cfg c.args.cmd = some r →
          ValueBytes s r c.args.data v u →
          (c.recLen.toNat + 2 + r.len.toNat ≤ 56 →
              ∃ m, exec .encRecord s = .next (u.setCtx
                  (Ctx.done { c with recBuf := m, recLen := BitVec.ofNat 7 (c.recLen.toNat + 2 + r.len.toNat) } .ok))
                ∧ Memory.Stored 56 c.recBuf c.recLen.toNat (commandBytes r v) m)
            ∧ (56 < c.recLen.toNat + 2 + r.len.toNat →
              exec .encRecord s = .next (u.setCtx (c.done .recordBufferFull)))))
    ∧ ∀ cfg : Config,
        (∀ r ∈ cfg.cmdTable, (∀ q ∈ cfg.cmdTable, q.id = r.id → q = r) → cmdLookup cfg r.id = some r)
          ∧ (∀ id, (∀ r ∈ cfg.cmdTable, r.id ≠ id) → cmdLookup cfg id = none) ∧ cmdLookup cfg 0 = none

/-- 41_frame_encoder.md R88, 30_encoding.md R62: the bytes of a frame. -/
def Obligations.FrameLayout : Prop :=
  ∀ (key mfr prod : Byte) (devid : BitVec 24) (rs : List Byte) (pip : BitVec 16), rs.length ≤ 56 →
    ∃ p q : List Byte,
      p = [devid.extractLsb' 16 8, devid.extractLsb' 8 8, devid.extractLsb' 0 8] ++ rs ++ [0x00#8]
        ∧ q.length = rs.length + 4 ∧ (∀ i b, p[i]? = some b → q[i]? = some (b ^^^ keyByte key pip i))
        ∧ frameBytes key mfr prod devid rs pip =
            [BitVec.ofNat 8 (10 + rs.length), mfr, prod, pip.extractLsb' 8 8, pip.extractLsb' 0 8] ++ q
              ++ [(crc16 p).extractLsb' 8 8, (crc16 p).extractLsb' 0 8]

/-- 41_frame_encoder.md R91: BUILD_FRAME. -/
def Obligations.BuildFrameResult : Prop :=
  decode 0x04#32 = .ok .buildFrame ∧
  ∀ (s : State) (c : Ctx), s.ctxs[s.cur]? = some c →
    (56 < c.recLen.toNat → exec .buildFrame s = .next (s.setCtx (c.done .badOperand)))
      ∧ (c.recLen.toNat ≤ 56 → Memory.wf 67 c.txBuf = true →
        ∃ m, exec .buildFrame s = .next (s.afterNonce.setCtx
            (Ctx.done { c with txBuf := m, txLen := BitVec.ofNat 7 (c.recLen.toNat + 11), rPip := s.nonce } .ok))
          ∧ Memory.Stored 67 c.txBuf 0
              (frameBytes s.cfg.cryptKey c.args.mfr c.args.prod c.args.devid (Memory.readRange c.recBuf 0 c.recLen.toNat) s.nonce)
              m)

/-- 41_frame_encoder.md R92: TX_FRAME. -/
def Obligations.TxFrameResult : Prop :=
  decode 0x06#32 = .ok .txFrame ∧
  ∀ (s : State) (c : Ctx), s.ctxs[s.cur]? = some c →
    (¬(s.gate.held = true ∧ s.gate.owner = BitVec.ofNat 8 s.cur) →
        exec .txFrame s = .next (s.setCtx (c.done .notLockOwner)))
      ∧ (s.gate.held = true → s.gate.owner = BitVec.ofNat 8 s.cur → (c.txLen = 0 ∨ 67 < c.txLen.toNat) →
        exec .txFrame s = .next (s.setCtx (c.done .badOperand)))
      ∧ (s.gate.held = true → s.gate.owner = BitVec.ofNat 8 s.cur → 1 ≤ c.txLen.toNat → c.txLen.toNat ≤ 67 →
        exec .txFrame s = .next
          (({ s with events := s.events
                ++ [.transmit (Memory.readRange c.txBuf 0 c.txLen.toNat) c.txLen.toNat c.args.repeatCount] } : State).setCtx
            (c.done .ok)))

/-! ## Frame decoder -/

/-- 42_frame_decoder.md R94, R95, R96: the length check, and what a frame that passes it decodes to. -/
def Obligations.DecodeOutcome : Prop :=
  ∀ (key : Byte) (b : Memory) (n l : Nat), (Memory.read b 0).toNat = l →
    (decodeFrame key b n = .frameLen ↔ (n = 0 ∨ l < 10 ∨ 66 < l ∨ n < l + 1))
    ∧ (10 ≤ l → l ≤ 66 → l + 1 ≤ n →
    ∃ p : List Byte, p.length = l + 1
      ∧ (∀ i, i < 5 ∨ i = l - 1 ∨ i = l → p[i]? = some (Memory.read b i))
      ∧ (∀ i, i < l - 6 →
          p[5 + i]? = some (Memory.read b (5 + i) ^^^ keyByte key (Memory.read b 3 ++ Memory.read b 4) i))
      ∧ (crc16 ((p.drop 5).take (l - 6)) ≠ Memory.read b (l - 1) ++ Memory.read b l →
          decodeFrame key b n = .crcMismatch p)
      ∧ (crc16 ((p.drop 5).take (l - 6)) = Memory.read b (l - 1) ++ Memory.read b l →
          ∃ f, decodeFrame key b n = .ok f ∧ f.plain = p ∧ f.l.toNat = l ∧ f.mfr = Memory.read b 1 ∧ f.prod = Memory.read b 2
            ∧ f.pip = Memory.read b 3 ++ Memory.read b 4 ∧ f.crc = Memory.read b (l - 1) ++ Memory.read b l
            ∧ f.devid = p.getD 5 0 ++ p.getD 6 0 ++ p.getD 7 0
            ∧ f.recs = parseRecords p (l - 1) (l - 9) 8 ∧ f.recs.length ≤ 28))

/-- 42_frame_decoder.md R97 to R104: a region that holds the records `rs`, and after them one of the four stops of R98, decodes to
exactly those records. -/
def Obligations.RecordsParsedUntilStop : Prop :=
  ∀ (front rest after : List Byte) (rs : List WireRecord), (∀ r ∈ rs, r.ok = true) →
    front.length + (rs.flatMap WireRecord.bytes).length + rest.length ≤ 67 →
    (rest = [] ∨ (rest.headD 0).extractLsb' 0 7 = 0#7 ∨ rest.length = 1
      ∨ rest.length < 2 + ((rest.getD 1 0).extractLsb' 0 4).toNat) →
    DecodedAs
      (parseRecords (front ++ rs.flatMap WireRecord.bytes ++ rest ++ after)
        (front.length + (rs.flatMap WireRecord.bytes).length + rest.length)
        ((rs.flatMap WireRecord.bytes).length + rest.length) front.length)
      rs front.length

/-- 42_frame_decoder.md R107: DECODE_FRAME. -/
def Obligations.DecodeFrameResult : Prop :=
  decode 0x05#32 = .ok .decodeFrame ∧
  ∀ (s : State) (c : Ctx), s.ctxs[s.cur]? = some c → c.memOk = true →
    (67 < c.rxLen.toNat → exec .decodeFrame s = .next (s.setCtx (c.done .badOperand)))
      ∧ (c.rxLen.toNat ≤ 67 →
        (decodeFrame s.cfg.cryptKey c.rxBuf c.rxLen.toNat = .frameLen →
            exec .decodeFrame s = .next (s.setCtx (Ctx.done { c with dec := { c.dec with valid := false } } .frameLen)))
          ∧ (∀ p, decodeFrame s.cfg.cryptKey c.rxBuf c.rxLen.toNat = .crcMismatch p →
            ∃ m, exec .decodeFrame s = .next (s.setCtx
                (Ctx.done { c with plainBuf := m, dec := { c.dec with valid := false } } .crcMismatch))
              ∧ Memory.Stored 67 c.plainBuf 0 p m)
          ∧ (∀ f, decodeFrame s.cfg.cryptKey c.rxBuf c.rxLen.toNat = .ok f →
            ∃ (m : Memory) (recs : List DecRec), exec .decodeFrame s = .next (s.setCtx
                (Ctx.done { c with plainBuf := m,
                                   dec := { valid := true, l := f.l, mfr := f.mfr, prod := f.prod, pip := f.pip,
                                            devid := f.devid, crc := f.crc, nrec := BitVec.ofNat 5 f.recs.length,
                                            recs := recs } } .ok))
              ∧ Memory.Stored 67 c.plainBuf 0 f.plain m
              ∧ (∀ k : Nat, k < f.recs.length → recs[k]? = f.recs[k]?)
              ∧ (∀ k : Nat, f.recs.length ≤ k → recs[k]? = c.dec.recs[k]?)))

/-- 41_frame_encoder.md R88, R91, 42_frame_decoder.md R93 to R107: a frame that BUILD_FRAME built from records, copied from TX_BUF
to RX_BUF, decodes to the IDs, the nonce and the records that went into it. -/
def Obligations.FrameRoundTrip : Prop :=
  ∀ (s : State) (c : Ctx) (rs : List WireRecord), s.ctxs[s.cur]? = some c → c.memOk = true → c.recLen.toNat ≤ 56 →
    (∀ r ∈ rs, r.ok = true) → Memory.readRange c.recBuf 0 c.recLen.toNat = rs.flatMap WireRecord.bytes →
    ∃ t b v d, exec .buildFrame s = .next t ∧ t.ctxs[s.cur]? = some b
      ∧ exec .decodeFrame (t.setCtx { b with rxBuf := b.txBuf, rxLen := b.txLen }) = .next v ∧ v.ctxs[s.cur]? = some d
      ∧ d.code = .ok ∧ d.dec.valid = true ∧ d.dec.mfr = c.args.mfr ∧ d.dec.prod = c.args.prod ∧ d.dec.devid = c.args.devid
      ∧ d.dec.pip = s.nonce ∧ d.dec.nrec.toNat = rs.length ∧ DecodedAs (d.dec.recs.take rs.length) rs 8

/-- 42_frame_decoder.md R108: one changed byte of a built frame. -/
def Obligations.TamperDetection : Prop :=
  ∀ (key mfr prod : Byte) (devid : BitVec 24) (rs : List Byte) (pip : BitVec 16) (j : Nat) (x : Byte), rs.length ≤ 56 →
    j ≤ rs.length + 10 → (frameBytes key mfr prod devid rs pip)[j]? ≠ some x →
    (5 ≤ j →
        ∀ f, decodeFrame key (Memory.write (Memory.ofBytes (frameBytes key mfr prod devid rs pip)) j x) (rs.length + 11) ≠ .ok f)
      ∧ (j = 1 ∨ j = 2 →
        ∃ f, decodeFrame key (Memory.write (Memory.ofBytes (frameBytes key mfr prod devid rs pip)) j x) (rs.length + 11) = .ok f
          ∧ f.mfr = (if j = 1 then x else mfr) ∧ f.prod = (if j = 2 then x else prod) ∧ f.devid = devid ∧ f.pip = pip)

/-! ## Receive ring buffer -/

/-- 43_ring_buffer.md R114, R110: RB_PUSH puts the frame behind the unread ones, and on a full buffer the oldest is lost. -/
def Obligations.RbPushResult : Prop :=
  decode 0x10#32 = .ok .rbPush ∧
  ∀ (s : State) (c : Ctx), s.ctxs[s.cur]? = some c →
    (67 < c.rxLen.toNat → exec .rbPush s = .next (s.setCtx (c.done .badOperand)))
      ∧ (c.rxLen.toNat ≤ 67 → s.ring.ok = true →
        ∃ r m, exec .rbPush s = .next (({ s with ring := r } : State).setCtx (c.done .ok)) ∧ r.ok = true
          ∧ r.unread = (if s.ring.count = 5 then s.ring.unread.tail else s.ring.unread)
              ++ [{ bytes := m, len := c.rxLen, ts := c.args.time }]
          ∧ (∀ a, Memory.read m a = if a < c.rxLen.toNat then Memory.read c.rxBuf a else 0)
          ∧ r.head = s.ring.head + 1 ∧ r.tail = (if s.ring.count = 5 then s.ring.tail + 1 else s.ring.tail))

/-- 43_ring_buffer.md R115, R111: RB_POP takes the oldest unread frame. -/
def Obligations.RbPopResult : Prop :=
  decode 0x11#32 = .ok .rbPop ∧
  ∀ (s : State) (c : Ctx), s.ctxs[s.cur]? = some c → Memory.wf 67 c.rxBuf = true → s.ring.ok = true →
    (s.ring.unread = [] → exec .rbPop s = .next (s.setCtx (c.done .empty)))
      ∧ (∀ e rest, s.ring.unread = e :: rest →
        ∃ r m, exec .rbPop s = .next (({ s with ring := r } : State).setCtx
            (Ctx.done { c with rxBuf := m, rxLen := e.len, rTs := e.ts } .ok))
          ∧ r.ok = true ∧ r.unread = rest ∧ r.slots = s.ring.slots ∧ r.head = s.ring.head
          ∧ Memory.wf 67 m = true ∧ ∀ a, Memory.read m a = Memory.read e.bytes a)

/-- 43_ring_buffer.md R116, R112: RB_PEEK reads an unread frame, counted from the oldest, and changes no ring state. -/
def Obligations.RbPeekResult : Prop :=
  decode 0x12#32 = .ok .rbPeek ∧
  ∀ (s : State) (c : Ctx), s.ctxs[s.cur]? = some c → Memory.wf 67 c.rxBuf = true → s.ring.ok = true →
    (s.ring.unread[c.args.index.toNat]? = none → exec .rbPeek s = .next (s.setCtx (c.done .empty)))
      ∧ (∀ e, s.ring.unread[c.args.index.toNat]? = some e →
        ∃ m, exec .rbPeek s = .next (s.setCtx (Ctx.done { c with rxBuf := m, rxLen := e.len, rTs := e.ts } .ok))
          ∧ Memory.wf 67 m = true ∧ ∀ a, Memory.read m a = Memory.read e.bytes a)

/-- 43_ring_buffer.md R109, R118: whatever is pushed, the unread frames are the last five, oldest first. -/
def Obligations.RingKeepsLastFive : Prop :=
  ∀ (r : Ring) (fs : List (List Byte × BitVec 64)), r.ok = true → (∀ f ∈ fs, f.1.length ≤ 67) →
    (fs.foldl (fun q f => q.push f.1 f.2) r).ok = true
      ∧ (fs.foldl (fun q f => q.push f.1 f.2) r).unread
          = (r.unread ++ fs.map (fun f => slotOf f.1 f.2)).drop (r.unread.length + fs.length - 5)

/-- 43_ring_buffer.md R117, R113: RB_DRAIN by the gate's holder, where the transceiver has the frames `fs`, at most as many as the
ring buffer has room for. The pass ends when the buffer is full, when nothing more waits, or at a read error; every frame gets the
time NOW, RB_TAIL is unchanged, and nothing is overwritten. Another context gets NOT_LOCK_OWNER. For the
holder the operation is `State.drain`, in the terms of which DrainingStep is stated, and the finish. -/
def Obligations.RbDrainResult : Prop :=
  decode 0x13#32 = .ok .rbDrain ∧
  ∀ (s : State) (c : Ctx), s.ctxs[s.cur]? = some c →
    (¬(s.gate.held = true ∧ s.gate.owner = BitVec.ofNat 8 s.cur) →
        exec .rbDrain s = .next (s.setCtx (c.done .notLockOwner)))
      ∧ (∀ (fs : List (List Byte)) (stop : List PortEvent) (ws : List Bool) (qs : List ReadAnswer), s.ring.ok = true →
          s.gate.held = true → s.gate.owner = BitVec.ofNat 8 s.cur → (∀ f ∈ fs, f.length ≤ 67) →
          (fs.length + s.ring.count.val = 5 ∧ stop = [] ∧ s.env.waitAnswers = List.replicate fs.length true ++ ws
                ∧ s.env.readAnswers = fs.map .ok ++ qs
            ∨ fs.length + s.ring.count.val < 5 ∧ stop = [.hasFrameWaiting false]
                ∧ s.env.waitAnswers = List.replicate fs.length true ++ false :: ws ∧ s.env.readAnswers = fs.map .ok ++ qs
            ∨ fs.length + s.ring.count.val < 5 ∧ stop = [.hasFrameWaiting true, .readFrame 67 .err]
                ∧ s.env.waitAnswers = List.replicate fs.length true ++ true :: ws
                ∧ s.env.readAnswers = fs.map .ok ++ .err :: qs) →
          ∃ r n, exec .rbDrain s = .next
              (({ s with ring := r,
                         events := s.events
                           ++ fs.flatMap (fun f => [.hasFrameWaiting true, .readFrame 67 (.ok f)]) ++ stop,
                         env := { s.env with waitAnswers := ws, readAnswers := qs, drawNo := n } } : State).setCtx (c.done .ok))
            ∧ r.ok = true ∧ r.tail = s.ring.tail ∧ r.unread = s.ring.unread ++ fs.map (fun f => slotOf f s.now))
      ∧ (s.gate.held = true → s.gate.owner = BitVec.ofNat 8 s.cur → exec .rbDrain s = .next (s.drain.setCtx (c.done .ok)))

/-! ## Device registry -/

/-- 44_retry_sequencer.md R123, R121, R120: DEV_CREATE, and what PRODUCT_TABLE says of a product: the one row of that id, and the
sentinel (None, none, 0) for a product without a row. -/
def Obligations.DevCreateResult : Prop :=
  decode 0x20#32 = .ok .devCreate
    ∧ (∀ (cfg : Config) (prod : Byte),
        (∀ r ∈ cfg.productTable, r.prod = prod → (∀ q ∈ cfg.productTable, q.prod = prod → q = r) →
            productInfo cfg prod =
              { cls := (match r.kind with | .plain k => k | .valve => .smallWindow | .thermostat => .smallWindow),
                ext := (match r.kind with | .plain _ => .none | .valve => .valve | .thermostat => .thermostat),
                wakeGated := r.wakeGated })
          ∧ ((∀ r ∈ cfg.productTable, r.prod ≠ prod) →
            productInfo cfg prod = { cls := .none, ext := .none, wakeGated := false })) ∧
  ∀ (s : State) (c : Ctx), s.ctxs[s.cur]? = some c →
    (∀ (k : Nat) (e : Dev), s.registryOk = true → s.devs[k]? = some e → e.devid = c.args.devid →
        exec .devCreate s = .next (s.setCtx (Ctx.done { c with rCreated := false, dev := reportOf e } .ok)))
      ∧ ((∀ e ∈ s.devs, e.devid ≠ c.args.devid) → s.devs.length = s.cfg.devMax →
        exec .devCreate s = .next (({ s with fatal := true } : State).setCtx (c.done .capacityExceeded)))
      ∧ ((∀ e ∈ s.devs, e.devid ≠ c.args.devid) → s.devs.length < s.cfg.devMax →
        ∃ e : Dev, exec .devCreate s = .next (({ s with devs := s.devs ++ [e] } : State).setCtx
            (Ctx.done { c with rCreated := true, dev := reportOf e } .ok))
          ∧ e = { devid := c.args.devid, mfr := c.args.mfr, prod := c.args.prod,
                  cls := (productInfo s.cfg c.args.prod).cls, ext := (productInfo s.cfg c.args.prod).ext,
                  wakeGated := (productInfo s.cfg c.args.prod).wakeGated, joined := c.args.flags.getLsbD 0,
                  seen := c.args.flags.getLsbD 1, hasCc := (productInfo s.cfg c.args.prod).cls == .smallWindow,
                  cc := { pending := false, cmd := 0, data := 0, retries := 0, active := false, frame := [], flen := 0 },
                  th := { mode := 0, modeKnown := false, lastTel := s.now } })

/-- 44_retry_sequencer.md R124, R125, R122: DEV_QUERY by device ID and DEV_LIST by index, and the device result registers of an
entry. -/
def Obligations.DevQueryListResult : Prop :=
  decode 0x21#32 = .ok .devQuery ∧ decode 0x22#32 = .ok .devList ∧
  ∀ (s : State) (c : Ctx), s.ctxs[s.cur]? = some c → s.registryOk = true →
    (∀ (k : Nat) (e : Dev), s.devs[k]? = some e → e.devid = c.args.devid →
        exec .devQuery s = .next (s.setCtx (Ctx.done { c with dev := reportOf e } .ok)))
      ∧ ((∀ e ∈ s.devs, e.devid ≠ c.args.devid) →
        exec .devQuery s = .next (s.setCtx (Ctx.done { c with dev := DevReport.reset } .notFound)))
      ∧ (∀ e : Dev, s.devs[c.args.index.toNat]? = some e →
        exec .devList s = .next (s.setCtx (Ctx.done { c with dev := reportOf e } .ok)))
      ∧ (s.devs.length ≤ c.args.index.toNat →
        exec .devList s = .next (s.setCtx (Ctx.done { c with dev := DevReport.reset } .notFound)))
      ∧ ∀ e : Dev,
        ((reportOf e).found = true ∧ (reportOf e).devid = e.devid ∧ (reportOf e).mfr = e.mfr ∧ (reportOf e).prod = e.prod
            ∧ (reportOf e).cls.toNat = (match e.cls with | .none => 0 | .always => 1 | .smallWindow => 2)
            ∧ (reportOf e).ext.toNat = (match e.ext with | .none => 0 | .valve => 1 | .thermostat => 2)
            ∧ (reportOf e).joined = e.joined ∧ (reportOf e).seen = e.seen ∧ (reportOf e).hasCc = e.hasCc)
          ∧ (e.hasCc = true → e.cc.pending = true →
              (reportOf e).pending = true ∧ (reportOf e).cmdId = e.cc.cmd ∧ (reportOf e).data = e.cc.data
                ∧ (reportOf e).retries = e.cc.retries ∧ (reportOf e).active = e.cc.active)
          ∧ (¬(e.hasCc = true ∧ e.cc.pending = true) →
              (reportOf e).pending = false ∧ (reportOf e).cmdId = 0 ∧ (reportOf e).data = 0 ∧ (reportOf e).retries = 0
                ∧ (reportOf e).active = false)
          ∧ (e.ext = .thermostat →
              (reportOf e).tMode = e.th.mode ∧ (reportOf e).tModeKnown = e.th.modeKnown ∧ (reportOf e).tLast = e.th.lastTel)
          ∧ (e.ext ≠ .thermostat → (reportOf e).tMode = 0 ∧ (reportOf e).tModeKnown = false ∧ (reportOf e).tLast = 0)

/-! ## Cached commands -/

/-- 44_retry_sequencer.md R128, 60_exceptions.md R155: the errors of CACHE_CMD in their order. -/
def Obligations.CacheCmdErrors : Prop :=
  ∀ (s : State) (c : Ctx), s.ctxs[s.cur]? = some c →
    ((∀ e ∈ s.devs, e.devid ≠ c.args.devid) →
        (c.args.cmd = 0 → exec .cacheCmd s = .next (s.setCtx (c.done .cancelUnknownDevice)))
          ∧ (c.args.cmd ≠ 0 → (productInfo s.cfg c.args.prod).cls ≠ .smallWindow →
            exec .cacheCmd s = .next (s.setCtx (c.done .deviceNotCacheable)))
          ∧ (c.args.cmd ≠ 0 → (productInfo s.cfg c.args.prod).cls = .smallWindow → cmdLookup s.cfg c.args.cmd = none →
            exec .cacheCmd s = .next (s.setCtx (c.done .unknownCommand)))
          ∧ (∀ r v u, c.args.cmd ≠ 0 → (productInfo s.cfg c.args.prod).cls = .smallWindow →
            cmdLookup s.cfg c.args.cmd = some r → ValueBytes s r c.args.data v u → s.devs.length = s.cfg.devMax →
            exec .cacheCmd s = .next (({ u with fatal := true } : State).setCtx (c.done .capacityExceeded))))
      ∧ (∀ (k : Nat) (e : Dev), s.registryOk = true → s.devs[k]? = some e → e.devid = c.args.devid → c.args.cmd ≠ 0 →
        (e.hasCc = false → exec .cacheCmd s = .next (s.setCtx (c.done .deviceNotCacheable)))
          ∧ (e.hasCc = true → cmdLookup s.cfg c.args.cmd = none →
            exec .cacheCmd s = .next (s.setCtx (c.done .unknownCommand))))

/-- 44_retry_sequencer.md R128, R126: a cancel of a known device clears what is outstanding and lowers its counter by one. -/
def Obligations.CacheCmdCancel : Prop :=
  ∀ (s : State) (c : Ctx) (k : Nat) (e : Dev), s.ctxs[s.cur]? = some c → s.registryOk = true → s.devs[k]? = some e →
    e.devid = c.args.devid → c.args.cmd = 0 →
    (e.cc.pending = false →
        exec .cacheCmd s = .next (s.setCtx (Ctx.done { c with rCreated := false, dev := reportOf e } .ok)))
      ∧ (e.cc.pending = true →
        ∃ e' : Dev, e' = { e with cc := { e.cc with pending := false, cmd := 0, data := 0, retries := 0 } }
          ∧ exec .cacheCmd s = .next
              (({ s with devs := s.devs.set k e',
                         cntActive := if e.cc.active then s.cntActive - 1 else s.cntActive,
                         cntPrecached := if e.cc.active then s.cntPrecached else s.cntPrecached - 1 } : State).setCtx
                (Ctx.done { c with rCreated := false, dev := reportOf e' } .ok)))

/-- 44_retry_sequencer.md R128, R127: CACHE_CMD on an unknown device whose product is cacheable creates an entry that was not seen,
with a pre-cached command. -/
def Obligations.CacheCmdCreates : Prop :=
  ∀ (s : State) (c : Ctx) (r : CmdRow) (v : List Byte) (u : State), s.ctxs[s.cur]? = some c →
    (∀ e ∈ s.devs, e.devid ≠ c.args.devid) → c.args.cmd ≠ 0 → (productInfo s.cfg c.args.prod).cls = .smallWindow →
    cmdLookup s.cfg c.args.cmd = some r → s.devs.length < s.cfg.devMax → ValueBytes s r c.args.data v u →
    ∃ (e : Dev) (m : Memory),
      Memory.Stored 67 [] 0
          (frameBytes s.cfg.cryptKey s.cfg.mfrDefault c.args.prod c.args.devid (commandBytes r v) u.nonce) m
        ∧ e = { devid := c.args.devid, mfr := s.cfg.mfrDefault, prod := c.args.prod, cls := .smallWindow,
                ext := (productInfo s.cfg c.args.prod).ext, wakeGated := (productInfo s.cfg c.args.prod).wakeGated,
                joined := false, seen := false, hasCc := true,
                cc := { pending := true, cmd := c.args.cmd, data := c.args.data, retries := c.args.retries, active := false,
                        frame := m, flen := BitVec.ofNat 7 (13 + r.len.toNat) },
                th := { mode := 0, modeKnown := false, lastTel := s.now } }
        ∧ exec .cacheCmd s = .next
            (({ u.afterNonce with devs := s.devs ++ [e], cntPrecached := s.cntPrecached + 1 } : State).setCtx
              (Ctx.done { c with rPip := u.nonce, rCreated := true, dev := reportOf e } .ok))

/-- 44_retry_sequencer.md R128, R127: CACHE_CMD on a known device replaces the command and its frame. ACTIVE of a new command is
SEEN and its counter goes up by one; an overwrite keeps ACTIVE and the counters. -/
def Obligations.CacheCmdStores : Prop :=
  ∀ (s : State) (c : Ctx) (k : Nat) (e : Dev) (r : CmdRow) (v : List Byte) (u : State), s.ctxs[s.cur]? = some c →
    s.registryOk = true → s.devs[k]? = some e → e.devid = c.args.devid → c.args.cmd ≠ 0 → e.hasCc = true →
    cmdLookup s.cfg c.args.cmd = some r → ValueBytes s r c.args.data v u →
    ∃ (e' : Dev) (m : Memory),
      Memory.Stored 67 [] 0 (frameBytes s.cfg.cryptKey e.mfr e.prod c.args.devid (commandBytes r v) u.nonce) m
        ∧ e' = { e with cc := { pending := true, cmd := c.args.cmd, data := c.args.data, retries := c.args.retries,
                                active := if e.cc.pending then e.cc.active else e.seen
                                frame := m, flen := BitVec.ofNat 7 (13 + r.len.toNat) } }
        ∧ exec .cacheCmd s = .next
            (({ u.afterNonce with
                  devs := s.devs.set k e',
                  cntActive := if !e.cc.pending && e.seen then s.cntActive + 1 else s.cntActive,
                  cntPrecached := if !e.cc.pending && !e.seen then s.cntPrecached + 1 else s.cntPrecached } : State).setCtx
              (Ctx.done { c with rPip := u.nonce, rCreated := false, dev := reportOf e' } .ok))

/-- 44_retry_sequencer.md R130, R129: TRY_SEND. For a known device it is `State.sendCached`, in the terms of which InjectStep is
stated, the report and the finish. -/
def Obligations.TrySendResult : Prop :=
  decode 0x24#32 = .ok .trySend ∧
  ∀ (s : State) (c : Ctx), s.ctxs[s.cur]? = some c → s.registryOk = true →
    (¬(s.gate.held = true ∧ s.gate.owner = BitVec.ofNat 8 s.cur) →
        exec .trySend s = .next (s.setCtx (c.done .notLockOwner)))
      ∧ (s.gate.held = true → s.gate.owner = BitVec.ofNat 8 s.cur →
        ((∀ e ∈ s.devs, e.devid ≠ c.args.devid) →
            exec .trySend s = .next (s.setCtx (Ctx.done { c with rSent := false, dev := DevReport.reset } .notFound)))
          ∧ (∀ (k : Nat) (e : Dev), s.devs[k]? = some e → e.devid = c.args.devid →
            (∃ e' : Dev, (s.sendCached k).2.devs[k]? = some e'
                ∧ exec .trySend s = .next ((s.sendCached k).2.setCtx
                    (Ctx.done { c with rSent := (s.sendCached k).1, dev := reportOf e' } .ok)))
              ∧ (e.cc.pending = false →
                exec .trySend s = .next (s.setCtx (Ctx.done { c with rSent := false, dev := reportOf e } .ok)))
              ∧ (e.cc.pending = true → e.cc.retries = 0 →
                ∃ e' : Dev, e' = { e with cc := { e.cc with pending := false, cmd := 0, data := 0, retries := 0 } }
                  ∧ exec .trySend s = .next
                      (({ s with devs := s.devs.set k e',
                                 cntActive := if e.cc.active then s.cntActive - 1 else s.cntActive,
                                 cntPrecached := if e.cc.active then s.cntPrecached else s.cntPrecached - 1 } : State).setCtx
                        (Ctx.done { c with rSent := false, dev := reportOf e' } .ok)))
              ∧ (e.cc.pending = true → e.cc.retries ≠ 0 →
                ∃ e' : Dev,
                  e' = { e with cc := { e.cc with pending := decide (2 ≤ e.cc.retries.toNat),
                                                  cmd := if e.cc.retries = 1 then 0 else e.cc.cmd
                                                  data := if e.cc.retries = 1 then 0 else e.cc.data
                                                  retries := e.cc.retries - 1, active := true } }
                  ∧ exec .trySend s = .next
                      (({ s with devs := s.devs.set k e',
                                 events := s.events
                                   ++ [.transmit (Memory.readRange e.cc.frame 0 e.cc.flen.toNat) e.cc.flen.toNat s.cfg.txRepeat],
                                 cntActive := (if e.cc.active then s.cntActive else s.cntActive + 1)
                                   - (if e.cc.retries = 1 then 1 else 0),
                                 cntPrecached := if e.cc.active then s.cntPrecached else s.cntPrecached - 1 } : State).setCtx
                        (Ctx.done { c with rSent := true, dev := reportOf e' } .ok)))))

/-- 44_retry_sequencer.md R129, R131: a command with n retries is transmitted by exactly n TRY_SENDs, each time with the same frame,
and is then cleared; the two counters together go down once, at the clear. -/
def Obligations.SendsExactlyRetries : Prop :=
  ∀ (s : State) (c : Ctx) (k : Nat) (e : Dev), s.ctxs[s.cur]? = some c → s.registryOk = true → s.gate.held = true →
    s.gate.owner = BitVec.ofNat 8 s.cur → s.devs[k]? = some e → e.devid = c.args.devid → e.cc.pending = true →
    1 ≤ e.cc.retries.toNat →
    ∀ j, ∃ t e', s.repeatOp .trySend j = some t ∧ t.devs[k]? = some e'
      ∧ t.events = s.events ++ List.replicate (min j e.cc.retries.toNat)
          (.transmit (Memory.readRange e.cc.frame 0 e.cc.flen.toNat) e.cc.flen.toNat s.cfg.txRepeat)
      ∧ e'.cc.retries.toNat = e.cc.retries.toNat - j ∧ e'.cc.pending = decide (j < e.cc.retries.toNat)
      ∧ t.cntActive + t.cntPrecached = s.cntActive + s.cntPrecached - (if e.cc.retries.toNat ≤ j then 1 else 0)

/-! ## Post-processing -/

/-- 44_retry_sequencer.md R136, R132, R134: the errors of POST_PROCESS, and POST_PROCESS for an entry without an extension and for
a valve, where a record that acknowledges the outstanding command clears it. First what ACK_TABLE says: a record acknowledges a
command if its param id is in that command's set, and no record acknowledges a command without a row. For every known device the
operation is `State.postProcess`, in the terms of which the poll's steps are stated, over DEC_REC[0..DEC_NREC), and the finish. -/
def Obligations.PostProcessPlainAndValve : Prop :=
  (∀ (cfg : Config) (cmd : Byte) (pid : BitVec 7),
      (∀ ps, (cmd, ps) ∈ cfg.ackTable → (∀ qs, (cmd, qs) ∈ cfg.ackTable → qs = ps) →
          (acknowledges cfg cmd pid = true ↔ pid ∈ ps))
        ∧ ((∀ row ∈ cfg.ackTable, row.1 ≠ cmd) → acknowledges cfg cmd pid = false)) ∧
  ∀ (s : State) (c : Ctx), s.ctxs[s.cur]? = some c → s.registryOk = true →
    (c.dec.valid = false → exec .postProcess s = .next (s.setCtx (c.done .badOperand)))
    ∧ (c.dec.valid = true → (∀ e ∈ s.devs, e.devid ≠ c.dec.devid) →
        exec .postProcess s = .next (s.setCtx (Ctx.done { c with dev := DevReport.reset } .notFound)))
    ∧ (∀ (k : Nat) (e : Dev), c.dec.valid = true → s.devs[k]? = some e → e.devid = c.dec.devid →
        ∃ t d, t = s.postProcess k (c.dec.recs.take c.dec.nrec.toNat) c.args.time ∧ t.ctxs[t.cur]? = some d
          ∧ exec .postProcess s = .next (t.setCtx (d.done .ok)))
    ∧ ∀ (k : Nat) (e : Dev) (acked : Bool), c.dec.valid = true → s.devs[k]? = some e → e.devid = c.dec.devid →
    e.ext ≠ .thermostat →
    acked = (e.ext == .valve && e.cc.pending && (c.dec.recs.take c.dec.nrec.toNat).any (fun r => acknowledges s.cfg e.cc.cmd r.pid)) →
    ∃ e' : Dev,
      e' = (if acked then { e with cc := { e.cc with pending := false, cmd := 0, data := 0, retries := 0 } } else e)
        ∧ exec .postProcess s = .next
            (({ s with devs := s.devs.set k e',
                       cntActive := if acked && e.cc.active then s.cntActive - 1 else s.cntActive,
                       cntPrecached := if acked && !e.cc.active then s.cntPrecached - 1 else s.cntPrecached } : State).setCtx
              (Ctx.done { c with dev := reportOf e',
                                 post := { hasWake := (c.dec.recs.take c.dec.nrec.toNat).any (fun r => r.pid == s.cfg.paramWakeup), acked := acked,
                                           assumed := false, assumedCmd := 0, assumedData := 0, autoCached := false } } .ok))

/-- 44_retry_sequencer.md R136, R133, R135: POST_PROCESS for a thermostat. A frame with a record other than the wakeup record sets
the telemetry timestamp and acknowledges the outstanding command; then, where a wakeup record came, nothing is outstanding, the
mode is known and not Gateway, and the period has elapsed, the set-mode command is cached with its frame. -/
def Obligations.PostProcessThermostat : Prop :=
  ∀ (s : State) (c : Ctx) (k : Nat) (e e1 : Dev) (wake other acked due echoless : Bool) (th : Thermostat),
    s.ctxs[s.cur]? = some c → s.registryOk = true → c.dec.valid = true → s.devs[k]? = some e → e.devid = c.dec.devid →
    e.ext = .thermostat →
    wake = (c.dec.recs.take c.dec.nrec.toNat).any (fun r => r.pid == s.cfg.paramWakeup) →
    other = (c.dec.recs.take c.dec.nrec.toNat).any (fun r => !(r.pid == s.cfg.paramWakeup)) →
    acked = (other && e.cc.pending) → echoless = (acked && s.cfg.noEchoCmds.contains e.cc.cmd) →
    th = { mode := if acked && e.cc.cmd == s.cfg.cmdThermMode then e.cc.data else e.th.mode
           modeKnown := (acked && e.cc.cmd == s.cfg.cmdThermMode) || e.th.modeKnown
           lastTel := if other then c.args.time else e.th.lastTel } →
    e1 = { e with th := th,
                  cc := if acked then { e.cc with pending := false, cmd := 0, data := 0, retries := 0 } else e.cc } →
    due = (wake && !e1.cc.pending && th.modeKnown && !(th.mode == s.cfg.modeGateway)
            && decide (th.lastTel.toNat + s.cfg.telemetryPeriod.toNat ≤ c.args.time.toNat)) →
    ((due = false ∨ cmdLookup s.cfg s.cfg.cmdThermMode = none) →
        exec .postProcess s = .next
          (({ s with devs := s.devs.set k e1,
                     cntActive := if acked && e.cc.active then s.cntActive - 1 else s.cntActive,
                     cntPrecached := if acked && !e.cc.active then s.cntPrecached - 1 else s.cntPrecached } : State).setCtx
            (Ctx.done { c with dev := reportOf e1,
                               post := { hasWake := wake, acked := acked, assumed := echoless,
                                         assumedCmd := if echoless then e.cc.cmd else 0
                                         assumedData := if echoless then e.cc.data else 0
                                         autoCached := false } } .ok)))
      ∧ (∀ r v u, due = true → cmdLookup s.cfg s.cfg.cmdThermMode = some r → ValueBytes s r th.mode v u →
        ∃ (e2 : Dev) (m : Memory),
          Memory.Stored 67 [] 0 (frameBytes s.cfg.cryptKey e.mfr e.prod e.devid (commandBytes r v) u.nonce) m
            ∧ e2 = { e1 with cc := { pending := true, cmd := s.cfg.cmdThermMode, data := th.mode,
                                     retries := s.cfg.autoRetries, active := e.seen, frame := m,
                                     flen := BitVec.ofNat 7 (13 + r.len.toNat) } }
            ∧ exec .postProcess s = .next
                (({ u.afterNonce with
                      devs := s.devs.set k e2,
                      cntActive := (if acked && e.cc.active then s.cntActive - 1 else s.cntActive)
                        + (if e.seen then 1 else 0),
                      cntPrecached := (if acked && !e.cc.active then s.cntPrecached - 1 else s.cntPrecached)
                        + (if e.seen then 0 else 1) } : State).setCtx
                  (Ctx.done { c with dev := reportOf e2,
                                     post := { hasWake := wake, acked := acked, assumed := echoless,
                                               assumedCmd := if echoless then e.cc.cmd else 0
                                               assumedData := if echoless then e.cc.data else 0
                                               autoCached := true } } .ok)))

/-! ## Receive pipeline -/

/-- 44_retry_sequencer.md R137: RX_POLL's start step. -/
def Obligations.RxPollStart : Prop :=
  ∀ (s : State) (c : Ctx), s.ctxs[s.cur]? = some c →
    exec .rxPoll s = .next (s.setCtx
      { c with busy := true, rSent := false, rCreated := false, dec := { c.dec with valid := false },
               post := { hasWake := false, acked := false, assumed := false, assumedCmd := 0, assumedData := 0,
                         autoCached := false },
               poll := { c.poll with
                         rxs := .draining, zero := decide (c.args.timeout = 0),
                         deadline := BitVec.ofNat 64 (min (s.now.toNat + c.args.timeout.toNat) (2 ^ 64 - 1)),
                         owned := decide (s.gate.held = true ∧ s.gate.owner = BitVec.ofNat 8 s.cur) } })

/-- 60_exceptions.md R159, 20_memory.md R46, 44_retry_sequencer.md R142: a context takes its own steps; a step that is not enabled
does not happen; a sleep that has ended leads back to DRAINING. -/
def Obligations.WaitingStepsHold : Prop :=
  (∀ (s : State) (n : Nat) (c : Ctx), s.nextInput = .proceed n → s.ctxs[n]? = some c →
      step s = .next (({ s.afterInput with cur := n } : State).proceed))
    ∧ ∀ (s : State) (c : Ctx), s.ctxs[s.cur]? = some c →
        ((c.poll.rxs = .off ∨ (c.poll.rxs = .gateWait ∧ s.gate.held = true)
          ∨ ((c.poll.rxs = .draining ∨ c.poll.rxs = .inject) ∧ s.gate.held = true ∧ s.gate.owner ≠ BitVec.ofNat 8 s.cur)
          ∨ (c.poll.rxs = .idle ∧ s.now.toNat < c.poll.wake.toNat)) →
        s.proceed = s)
        ∧ (c.poll.rxs = .idle → c.poll.wake.toNat ≤ s.now.toNat →
          s.proceed = s.setCtx { c with poll := { c.poll with rxs := .draining } })

/-- 44_retry_sequencer.md R138, 45_radio_gate.md R146: the DRAINING step takes the gate, drains, and puts back only what it took. -/
def Obligations.DrainingStep : Prop :=
  ∀ (s : State) (c : Ctx), s.ctxs[s.cur]? = some c → c.poll.rxs = .draining →
    (s.gate.held = true → s.gate.owner = BitVec.ofNat 8 s.cur →
        ∃ t, t = s.drain ∧ t.gate = s.gate
          ∧ s.proceed = t.setCtx { c with poll := { c.poll with rxs := .decoding } })
      ∧ (s.gate.held = false → s.gate.init = true →
        ∃ g t, g = { init := true, held := true, owner := BitVec.ofNat 8 s.cur } ∧ t = State.drain { s with gate := g }
          ∧ s.proceed = ({ t with gate := { g with held := false } } : State).setCtx
              { c with poll := { c.poll with rxs := .decoding } })
      ∧ (s.gate.held = false → s.gate.init = false → s.initAnswer = true →
        ∃ g t, g = { init := true, held := true, owner := BitVec.ofNat 8 s.cur }
          ∧ t = State.drain { s.afterInit with gate := g, events := s.events ++ [.initCall true, .setMode s.cfg.defaultMode] }
          ∧ s.proceed = ({ t with gate := { g with held := false } } : State).setCtx
              { c with poll := { c.poll with rxs := .decoding } })
      ∧ (s.gate.held = false → s.gate.init = false → s.initAnswer = false →
        s.proceed = ({ s.afterInit with events := s.events ++ [.initCall false] } : State).setCtx
          (Ctx.done { c with poll := { c.poll with rxs := .off } } .lockUnavailable))

/-- 44_retry_sequencer.md R139, R145: the DECODING step on an empty ring buffer; and on a frame that fails decoding, which is
dropped: CODE is not written, the poll stays in DECODING, and PLAIN_BUF is as DECODE_FRAME leaves it (42_frame_decoder.md R107). -/
def Obligations.DecodingEmptyOrBadFrame : Prop :=
  ∀ (s : State) (c : Ctx), s.ctxs[s.cur]? = some c → c.memOk = true → s.ring.ok = true → c.poll.rxs = .decoding →
    (s.ring.unread = [] → (c.poll.zero = true ∨ c.poll.deadline.toNat ≤ s.now.toNat) →
        s.proceed = s.setCtx (Ctx.done { c with poll := { c.poll with rxs := .off } } .noMessage))
      ∧ (s.ring.unread = [] → c.poll.zero = false → s.now.toNat < c.poll.deadline.toNat →
        ∃ w : BitVec 64,
          w.toNat = min (s.now.toNat
              + (if 0 < s.cntActive.toNat + s.cntPrecached.toNat then s.cfg.sleepShort else s.cfg.sleepLong)) c.poll.deadline.toNat
            ∧ s.proceed = s.setCtx { c with poll := { c.poll with rxs := .idle, wake := w } })
      ∧ (∀ (e : Slot) (rest : List Slot), s.ring.unread = e :: rest →
        (∀ f, decodeFrame s.cfg.cryptKey e.bytes e.len.toNat ≠ .ok f) →
        ∃ r m p, s.proceed = ({ s with ring := r } : State).setCtx
            { c with rxBuf := m, rxLen := e.len, rTs := e.ts, plainBuf := p, dec := { c.dec with valid := false } }
          ∧ r.ok = true ∧ r.unread = rest ∧ r.slots = s.ring.slots ∧ r.head = s.ring.head
          ∧ (∀ a, Memory.read m a = Memory.read e.bytes a)
          ∧ (decodeFrame s.cfg.cryptKey e.bytes e.len.toNat = .frameLen → p = c.plainBuf)
          ∧ (∀ q, decodeFrame s.cfg.cryptKey e.bytes e.len.toNat = .crcMismatch q → Memory.Stored 67 c.plainBuf 0 q p))

/-- 44_retry_sequencer.md R139, R140: a valid frame of a device that the registry holds marks it seen, and goes on to INJECT exactly
if a command is outstanding and the device is not wake-gated or sent a wakeup record; otherwise the frame is post-processed and the
poll ends with OK. -/
def Obligations.DecodingAcceptsKnownDevice : Prop :=
  ∀ (s : State) (c : Ctx) (e : Slot) (rest : List Slot) (f : DecodedFrame) (k : Nat) (dev : Dev) (inject : Bool),
    s.ctxs[s.cur]? = some c → c.memOk = true → s.ring.ok = true → s.registryOk = true → s.countersOk = true →
    c.poll.rxs = .decoding → s.ring.unread = e :: rest → decodeFrame s.cfg.cryptKey e.bytes e.len.toNat = .ok f →
    s.devs[k]? = some dev → dev.devid = f.devid →
    inject = (dev.cc.pending && (!dev.wakeGated || f.recs.any (fun r => r.pid == s.cfg.paramWakeup))) →
    ∃ r m p d, r.ok = true ∧ r.unread = rest ∧ r.slots = s.ring.slots ∧ r.head = s.ring.head
      ∧ (∀ a, Memory.read m a = Memory.read e.bytes a)
      ∧ Memory.Stored 67 c.plainBuf 0 f.plain p
      ∧ d = { c with rxBuf := m, rxLen := e.len, rTs := e.ts, plainBuf := p, dec := decOutOf f c.dec, rCreated := false }
      ∧ (inject = true →
        s.proceed = ({ s with ring := r, devs := s.devs.set k { dev with seen := true } } : State).setCtx
          { d with poll := { c.poll with rxs := .inject, dev := BitVec.ofNat 16 k } })
      ∧ (inject = false →
        s.proceed = ((({ s with ring := r, devs := s.devs.set k { dev with seen := true } } : State).setCtx d).postProcess k
          f.recs e.ts).endPoll .ok)

/-- 44_retry_sequencer.md R139, R121, 60_exceptions.md R157: a valid frame of a new device. Where the registry is full, the fatal flag
is set and the poll ends with CAPACITY_EXCEEDED. Otherwise one entry with the frame's IDs, seen, and with LASTTEL the slot's time is
appended and reported, post-processing finds nothing outstanding, and the poll ends with OK. What the equations do not write is
unchanged: the counters, the gate and the port log among it. -/
def Obligations.DecodingNewDevice : Prop :=
  ∀ (s : State) (c : Ctx) (e : Slot) (rest : List Slot) (f : DecodedFrame), s.ctxs[s.cur]? = some c → c.memOk = true →
    s.ring.ok = true → c.poll.rxs = .decoding → s.ring.unread = e :: rest →
    decodeFrame s.cfg.cryptKey e.bytes e.len.toNat = .ok f → (∀ dev ∈ s.devs, dev.devid ≠ f.devid) →
    ∃ (r : Ring) (m p : Memory) (d : Ctx), r.ok = true ∧ r.unread = rest ∧ r.slots = s.ring.slots ∧ r.head = s.ring.head
      ∧ (∀ a, Memory.read m a = Memory.read e.bytes a)
      ∧ Memory.Stored 67 c.plainBuf 0 f.plain p
      ∧ d = { c with rxBuf := m, rxLen := e.len, rTs := e.ts, plainBuf := p, dec := decOutOf f c.dec,
                     poll := { c.poll with rxs := .off } }
      ∧ (s.devs.length = s.cfg.devMax →
        s.proceed = ({ s with ring := r, fatal := true } : State).setCtx (d.done .capacityExceeded))
      ∧ (s.devs.length < s.cfg.devMax →
        ∃ dev : Dev,
          dev = { devid := f.devid, mfr := f.mfr, prod := f.prod, cls := (productInfo s.cfg f.prod).cls,
                  ext := (productInfo s.cfg f.prod).ext, wakeGated := (productInfo s.cfg f.prod).wakeGated, joined := false,
                  seen := true, hasCc := (productInfo s.cfg f.prod).cls == .smallWindow,
                  cc := { pending := false, cmd := 0, data := 0, retries := 0, active := false, frame := [], flen := 0 },
                  th := { mode := 0, modeKnown := false, lastTel := e.ts } }
            ∧ s.proceed = ({ s with ring := r, devs := s.devs ++ [dev] } : State).setCtx
                (Ctx.done { d with rCreated := true, dev := reportOf dev,
                                   post := { hasWake := f.recs.any (fun q => q.pid == s.cfg.paramWakeup), acked := false,
                                             assumed := false, assumedCmd := 0, assumedData := 0, autoCached := false } } .ok))

/-- 44_retry_sequencer.md R141: the INJECT step of the gate's holder, and of a context that takes the free gate and puts it back:
one `sendCached`, then post-processing, and the poll ends with OK. First what the end of a poll writes (R137): RXS, CODE and BUSY,
and nothing else. -/
def Obligations.InjectStep : Prop :=
  (∀ (t : State) (d : Ctx) (e : Code), t.ctxs[t.cur]? = some d →
      t.endPoll e = t.setCtx (Ctx.done { d with poll := { d.poll with rxs := .off } } e)) ∧
  ∀ (s : State) (c : Ctx), s.ctxs[s.cur]? = some c → c.poll.rxs = .inject →
    (s.gate.held = true → s.gate.owner = BitVec.ofNat 8 s.cur →
        s.proceed = (((s.sendCached c.poll.dev.toNat).2.setCtx { c with rSent := (s.sendCached c.poll.dev.toNat).1 }).postProcess
          c.poll.dev.toNat (c.dec.recs.take c.dec.nrec.toNat) c.rTs).endPoll .ok)
      ∧ (s.gate.held = false → s.gate.init = true →
        ∃ g t b, g = { init := true, held := true, owner := BitVec.ofNat 8 s.cur }
          ∧ (b, t) = State.sendCached { s with gate := g } c.poll.dev.toNat
          ∧ s.proceed = ((({ t with gate := { g with held := false } } : State).setCtx { c with rSent := b }).postProcess
              c.poll.dev.toNat (c.dec.recs.take c.dec.nrec.toNat) c.rTs).endPoll .ok)
      ∧ (s.gate.held = false → s.gate.init = false → s.initAnswer = true →
        ∃ g t b, g = { init := true, held := true, owner := BitVec.ofNat 8 s.cur }
          ∧ (b, t) = State.sendCached
              { s.afterInit with gate := g, events := s.events ++ [.initCall true, .setMode s.cfg.defaultMode] }
              c.poll.dev.toNat
          ∧ s.proceed = ((({ t with gate := { g with held := false } } : State).setCtx { c with rSent := b }).postProcess
              c.poll.dev.toNat (c.dec.recs.take c.dec.nrec.toNat) c.rTs).endPoll .ok)
      ∧ (s.gate.held = false → s.gate.init = false → s.initAnswer = false →
        s.proceed = ({ s.afterInit with events := s.events ++ [.initCall false] } : State).setCtx
          (Ctx.done { c with poll := { c.poll with rxs := .off } } .lockUnavailable))

/-! ## Gate -/

/-- 45_radio_gate.md R147, R146: GATE_ACQUIRE, and its wait step. -/
def Obligations.GateAcquireResult : Prop :=
  ∀ (s : State) (c : Ctx), s.ctxs[s.cur]? = some c →
    (s.gate.held = true → s.gate.owner = BitVec.ofNat 8 s.cur →
        exec .gateAcquire s = .next (s.setCtx (Ctx.done { c with rAlready := true } .ok)))
      ∧ (s.gate.held = true → s.gate.owner ≠ BitVec.ofNat 8 s.cur →
        exec .gateAcquire s = .next (s.setCtx { c with busy := true, poll := { c.poll with rxs := .gateWait } }))
      ∧ (s.gate.held = false → s.gate.init = true →
        exec .gateAcquire s = .next
          (({ s with gate := { init := true, held := true, owner := BitVec.ofNat 8 s.cur } } : State).setCtx
            (Ctx.done { c with rAlready := false } .ok)))
      ∧ (s.gate.held = false → s.gate.init = false → s.initAnswer = true →
        exec .gateAcquire s = .next
          (({ s.afterInit with gate := { init := true, held := true, owner := BitVec.ofNat 8 s.cur },
                               events := s.events ++ [.initCall true, .setMode s.cfg.defaultMode] } : State).setCtx
            (Ctx.done { c with rAlready := false } .ok)))
      ∧ (s.gate.held = false → s.gate.init = false → s.initAnswer = false →
        exec .gateAcquire s = .next
          (({ s.afterInit with events := s.events ++ [.initCall false] } : State).setCtx (c.done .lockUnavailable)))
      ∧ (s.gate.held = false → c.poll.rxs = .gateWait →
        exec .gateAcquire (s.setCtx { c with poll := { c.poll with rxs := .off } }) = .next s.proceed)

/-- 45_radio_gate.md R148, R149, R150: GATE_RELEASE and SHUTDOWN, for the holder and for any other context, and NOP. -/
def Obligations.GateReleaseShutdownNopResult : Prop :=
  decode 0x00#32 = .ok .nop ∧ decode 0x31#32 = .ok .gateRelease ∧ decode 0x32#32 = .ok .shutdown ∧
  ∀ (s : State) (c : Ctx), s.ctxs[s.cur]? = some c →
    exec .nop s = .next (s.setCtx (c.done .ok))
    ∧ (s.gate.held = true → s.gate.owner = BitVec.ofNat 8 s.cur →
        exec .gateRelease s = .next (({ s with gate := { s.gate with held := false } } : State).setCtx (c.done .ok))
          ∧ exec .shutdown s = .next
              (({ s with gate := { s.gate with init := false, held := false }, events := s.events ++ [.shutdown] } : State).setCtx
                (c.done .ok)))
      ∧ (¬(s.gate.held = true ∧ s.gate.owner = BitVec.ofNat 8 s.cur) →
        exec .gateRelease s = .next (s.setCtx (c.done .notLockOwner))
          ∧ exec .shutdown s = .next (s.setCtx (c.done .notLockOwner)))

/-! ## The whole machine -/

/-- 10_state.md R14: a step changes no bank but that of the context that takes it, and what it does depends on no other bank. -/
def Obligations.ContextIsolation : Prop :=
  (∀ s t : State, step s = .next t → s.nextInput ≠ .reset →
      t.ctxs.length = s.ctxs.length
        ∧ ∀ n, inputContext s.nextInput ≠ some n → t.ctxs[n]? = s.ctxs[n]?)
    ∧ (∀ (i : Instr) (s t : State) (others : List Ctx), s.cur < s.ctxs.length → others.length = s.ctxs.length →
        exec i s = .next t → exec i (s.graft others) = .next (t.graft others))
    ∧ ∀ (s : State) (others : List Ctx), s.cur < s.ctxs.length → others.length = s.ctxs.length →
        (s.graft others).proceed = s.proceed.graft others

/-- 10_state.md R25, R29, R31, R32, R37, 70_reset_and_hazards.md R168: what no step but a reset ever undoes. The configuration does
not change; NOW never decreases; the port log only grows at its end; G_FATAL stays; no entry is removed, and an entry keeps what it
was created with, and SEEN once it is set. -/
def Obligations.NothingUndone : Prop :=
  ∀ s t : State, step s = .next t →
    t.cfg = s.cfg ∧ s.now.toNat ≤ t.now.toNat
      ∧ (s.nextInput ≠ .reset →
        (∃ es, t.events = s.events ++ es) ∧ (s.fatal = true → t.fatal = true)
          ∧ ∀ (k : Nat) (e : Dev), s.devs[k]? = some e →
              ∃ e', t.devs[k]? = some e'
                ∧ (e'.devid, e'.mfr, e'.prod, e'.cls, e'.ext, e'.wakeGated, e'.joined, e'.hasCc)
                  = (e.devid, e.mfr, e.prod, e.cls, e.ext, e.wakeGated, e.joined, e.hasCc)
                ∧ (e.seen = true → e'.seen = true))

/-- 10_state.md R16, R18, R24, 43_ring_buffer.md R118: every step keeps the banks' buffers and decode outputs in shape, and the
ring buffer's invariant. That an unlisted byte reads 0 and no 0 is listed is the model's own form of a memory (log 9). -/
def Obligations.BanksAndRingKept : Prop :=
  ∀ s t : State, step s = .next t → (s.banksOk = true → t.banksOk = true) ∧ (s.ring.ok = true → t.ring.ok = true)

/-- 10_state.md R25, R27, R28, 44_retry_sequencer.md R131: every step keeps the counter invariant, and at most one entry, with at
most one outstanding command and its whole frame, for a device ID. -/
def Obligations.RegistryAndCountersKept : Prop :=
  ∀ s t : State, step s = .next t →
    (s.registryOk = true → t.registryOk = true)
      ∧ (s.registryFits = true → s.countersOk = true → t.registryFits = true ∧ t.countersOk = true)

/-- 10_state.md R14, R22, R30, 44_retry_sequencer.md R138, R142: every step keeps the number of contexts, the gate's invariant, and
the invariant of the poll states: `RXS = OFF` exactly when `BUSY = 0`, no sleep past the deadline, no sleep with timeout 0, and a
poll that started with the gate still has it. -/
def Obligations.PollStatesKept : Prop :=
  ∀ s t : State, (s.contextsOk && s.gateOk && s.registryFits && s.pollsOk) = true → step s = .next t →
    (t.contextsOk && t.gateOk && t.pollsOk) = true

/-- 70_reset_and_hazards.md R169, 45_radio_gate.md R151: every step keeps the port log one that the rules allow: nothing before a
successful `initialize` and its `set_mode`, a read only after an answer that a frame waits, no call of `reset`. -/
def Obligations.PortOrderKept : Prop :=
  ∀ s t : State, (s.contextsOk && s.gateOk && s.registryOk && s.portOk) = true → step s = .next t → t.portOk = true

/-- 10_state.md R38: the state after reset meets the invariants. -/
def Obligations.ResetMeetsInvariants : Prop :=
  ∀ cfg : Config,
    ((State.resetWith cfg).banksOk && (State.resetWith cfg).ring.ok && (State.resetWith cfg).registryFits
      && (State.resetWith cfg).registryOk && (State.resetWith cfg).countersOk && (State.resetWith cfg).contextsOk
      && (State.resetWith cfg).gateOk && (State.resetWith cfg).pollsOk && (State.resetWith cfg).portOk) = true

/-- 45_radio_gate.md R151, 20_memory.md R49: while a context holds the gate, no step of another context changes the gate or makes a
port event; and only the holder's own GATE_RELEASE or SHUTDOWN, or a reset, frees it. -/
def Obligations.GateExclusive : Prop :=
  ∀ s t : State, s.contextsOk = true → s.gateOk = true → s.gate.held = true → step s = .next t →
    (∀ n, inputContext s.nextInput = some n → n ≠ s.gate.owner.toNat → t.gate = s.gate ∧ t.events = s.events)
      ∧ (¬(t.gate.held = true ∧ t.gate.owner = s.gate.owner) →
        s.nextInput = .reset ∨ s.nextInput = .command s.gate.owner.toNat 0x31#32
          ∨ s.nextInput = .command s.gate.owner.toNat 0x32#32)

/-- 20_memory.md R48, R51, 44_retry_sequencer.md R131: while a command stays outstanding, its frame is the same and its retry count
never increases, unless a CACHE_CMD replaces it, or one step of post-processing acknowledges it and caches the set-mode command. -/
def Obligations.RetriesNeverIncrease : Prop :=
  ∀ (s t : State) (k : Nat) (e e' : Dev), step s = .next t → s.nextInput ≠ .reset →
    (∀ n, s.nextInput ≠ .command n 0x23#32) → s.devs[k]? = some e → t.devs[k]? = some e' → e.cc.pending = true →
    e'.cc.pending = true →
    ((e'.cc.frame, e'.cc.flen, e'.cc.cmd, e'.cc.data) = (e.cc.frame, e.cc.flen, e.cc.cmd, e.cc.data)
        ∧ e'.cc.retries.toNat ≤ e.cc.retries.toNat)
      ∨ (e'.cc.cmd = s.cfg.cmdThermMode ∧ e'.cc.retries = s.cfg.autoRetries ∧ t.ctx.post.autoCached = true)
end

