-- ==== Sys2Proof/Laws/Memory.lean ====
section
/-! SUPPORT. Laws of the byte memories: what a read finds after a write, and that every memory operation keeps the canonical form
(so that equal memories are equal data). -/

namespace Sys2Proof.Machine

theorem Memory.wf_cons {size a : Nat} {v : Byte} {m : Memory} :
    Memory.wf size ((a, v) :: m) = true ↔
      a < size ∧ v ≠ 0 ∧ (∀ c ∈ m, a < c.1) ∧ Memory.wf size m = true := by
  simp [Memory.wf, and_assoc]

theorem Memory.wf_nil (size : Nat) : Memory.wf size [] = true := rfl

theorem Memory.wf_mono {size size' : Nat} {m : Memory} (hs : size ≤ size') (h : Memory.wf size m = true) :
    Memory.wf size' m = true := by
  induction m with
  | nil => rfl
  | cons c m ih =>
    obtain ⟨a, v⟩ := c
    rw [Memory.wf_cons] at h ⊢
    exact ⟨by omega, h.2.1, h.2.2.1, ih h.2.2.2⟩

/-- No cell at or past the end. -/
theorem Memory.lt_of_mem {size : Nat} {m : Memory} (h : Memory.wf size m = true) : ∀ c ∈ m, c.1 < size := by
  induction m with
  | nil => simp
  | cons c m ih =>
    obtain ⟨a, v⟩ := c
    rw [Memory.wf_cons] at h
    intro d hd
    rcases List.mem_cons.mp hd with rfl | hd
    · exact h.1
    · exact ih h.2.2.2 d hd

/-- An unlisted byte reads 0. -/
theorem Memory.read_of_forall_ne {m : Memory} {a : Nat} (h : ∀ c ∈ m, c.1 ≠ a) : Memory.read m a = 0 := by
  induction m with
  | nil => rfl
  | cons c m ih =>
    obtain ⟨b, x⟩ := c
    have hb : b ≠ a := h (b, x) (by simp)
    simp only [Memory.read]
    rw [if_neg (fun e => hb e.symm), ih (fun c hc => h c (by simp [hc]))]

theorem Memory.read_ge {size : Nat} {m : Memory} (h : Memory.wf size m = true) {a : Nat} (ha : size ≤ a) :
    Memory.read m a = 0 :=
  Memory.read_of_forall_ne (fun c hc => by have := Memory.lt_of_mem h c hc; omega)

theorem Memory.write_mem {m : Memory} {a : Nat} {v : Byte} {c : Host.Cell} (h : c ∈ Memory.write m a v) :
    c ∈ m ∨ c = (a, v) := by
  induction m with
  | nil =>
    simp only [Memory.write] at h
    split at h
    · simp at h
    · right; simpa using h
  | cons d m ih =>
    obtain ⟨b, x⟩ := d
    simp only [Memory.write] at h
    split at h
    · split at h
      · left; exact h
      · rcases List.mem_cons.mp h with h | h
        · right; exact h
        · left; exact h
    · split at h
      · split at h
        · left; exact List.mem_cons_of_mem _ h
        · rcases List.mem_cons.mp h with h | h
          · right; exact h
          · left; exact List.mem_cons_of_mem _ h
      · rcases List.mem_cons.mp h with h | h
        · left; simp [h]
        · rcases ih h with h | h
          · left; exact List.mem_cons_of_mem _ h
          · right; exact h

/-- A write keeps the canonical form. -/
theorem Memory.wf_write {size : Nat} {m : Memory} {a : Nat} {v : Byte} (ha : a < size) (h : Memory.wf size m = true) :
    Memory.wf size (Memory.write m a v) = true := by
  induction m with
  | nil =>
    simp only [Memory.write]
    split
    · rfl
    · rw [Memory.wf_cons]; exact ⟨ha, by assumption, by simp, rfl⟩
  | cons d m ih =>
    obtain ⟨b, x⟩ := d
    have h' := h
    rw [Memory.wf_cons] at h
    simp only [Memory.write]
    split
    · split
      · exact h'
      · rw [Memory.wf_cons]
        refine ⟨ha, by assumption, ?_, h'⟩
        intro c hc
        rcases List.mem_cons.mp hc with rfl | hc
        · assumption
        · have := h.2.2.1 c hc; omega
    · split
      · split
        · exact h.2.2.2
        · rw [Memory.wf_cons]
          refine ⟨ha, by assumption, ?_, h.2.2.2⟩
          intro c hc
          have := h.2.2.1 c hc; omega
      · rw [Memory.wf_cons]
        refine ⟨h.1, h.2.1, ?_, ih h.2.2.2⟩
        intro c hc
        rcases Memory.write_mem hc with hc | rfl
        · exact h.2.2.1 c hc
        · simp only; omega

/-- What a read finds after a write. -/
theorem Memory.read_write {size : Nat} {m : Memory} (h : Memory.wf size m = true) (a b : Nat) (v : Byte) :
    Memory.read (Memory.write m a v) b = if b = a then v else Memory.read m b := by
  induction m with
  | nil =>
    simp only [Memory.write]
    split
    · rename_i hv
      by_cases hb : b = a <;> simp [Memory.read, hb, hv]
    · by_cases hb : b = a <;> simp [Memory.read, hb]
  | cons d m ih =>
    obtain ⟨c, x⟩ := d
    rw [Memory.wf_cons] at h
    have hz : ∀ q, q ≤ c → Memory.read m q = 0 := fun q hq =>
      Memory.read_of_forall_ne (fun e he => by have := h.2.2.1 e he; omega)
    simp only [Memory.write]
    by_cases h1 : a < c
    · rw [if_pos h1]
      by_cases hv : v = 0
      · rw [if_pos hv]
        by_cases hb : b = a
        · subst hb
          rw [if_pos rfl, hv]
          simp only [Memory.read]
          rw [if_neg (by omega), hz b (by omega)]
        · rw [if_neg hb]
      · rw [if_neg hv]
        by_cases hb : b = a <;> simp [Memory.read, hb]
    · rw [if_neg h1]
      by_cases h2 : a = c
      · subst h2
        rw [if_pos rfl]
        by_cases hv : v = 0
        · rw [if_pos hv]
          by_cases hb : b = a
          · subst hb; rw [if_pos rfl, hv]; exact hz b (by omega)
          · simp [Memory.read, hb]
        · rw [if_neg hv]
          by_cases hb : b = a <;> simp [Memory.read, hb]
      · rw [if_neg h2]
        simp only [Memory.read]
        by_cases hb : b = c
        · subst hb
          rw [if_pos rfl, if_neg (fun e => h2 e.symm), if_pos rfl]
        · rw [if_neg hb, if_neg hb]
          exact ih h.2.2.2

/-- A range write within the memory keeps the canonical form. -/
theorem Memory.wf_writeRange {size : Nat} (bs : List Byte) : ∀ {m : Memory} {i : Nat}, i + bs.length ≤ size →
    Memory.wf size m = true → Memory.wf size (Memory.writeRange m i bs) = true := by
  induction bs with
  | nil => intro m i _ h; exact h
  | cons b bs ih =>
    intro m i hi h
    simp only [Memory.writeRange]
    simp only [List.length_cons] at hi
    exact ih (by omega) (Memory.wf_write (by omega) h)

/-- What a read finds after a range write. -/
theorem Memory.read_writeRange {size : Nat} (bs : List Byte) : ∀ {m : Memory} {i : Nat}, i + bs.length ≤ size →
    Memory.wf size m = true → ∀ a, Memory.read (Memory.writeRange m i bs) a =
      if i ≤ a ∧ a < i + bs.length then bs.getD (a - i) 0 else Memory.read m a := by
  induction bs with
  | nil => intro m i _ _ a; simp [Memory.writeRange]
  | cons b bs ih =>
    intro m i hi h a
    simp only [List.length_cons] at hi
    simp only [Memory.writeRange, List.length_cons]
    rw [ih (by omega) (Memory.wf_write (by omega) h), Memory.read_write h]
    by_cases h1 : a = i
    · subst h1
      rw [if_neg (by omega), if_pos rfl, if_pos (by omega)]
      simp
    · by_cases h2 : i + 1 ≤ a ∧ a < i + 1 + bs.length
      · rw [if_pos h2, if_pos (by omega)]
        have : a - i = (a - (i + 1)) + 1 := by omega
        rw [this]; simp
      · rw [if_neg h2, if_neg h1, if_neg (by omega)]

/-- A range write stores its bytes and leaves every other byte alone. -/
theorem Memory.stored_writeRange {size : Nat} {m : Memory} {i : Nat} {bs : List Byte} (hi : i + bs.length ≤ size)
    (h : Memory.wf size m = true) : Memory.Stored size m i bs (Memory.writeRange m i bs) := by
  refine ⟨Memory.wf_writeRange bs hi h, ?_, ?_⟩
  · intro j b hb
    have hj : j < bs.length := (List.getElem?_eq_some_iff.mp hb).1
    rw [Memory.read_writeRange bs hi h, if_pos (by omega)]
    simp [List.getD_eq_getElem?_getD, hb]
  · intro a ha
    rw [Memory.read_writeRange bs hi h, if_neg (by omega)]

theorem Memory.stored_ofBytes {size : Nat} {bs : List Byte} (hi : bs.length ≤ size) :
    Memory.Stored size [] 0 bs (Memory.ofBytes bs) :=
  Memory.stored_writeRange (by omega) (Memory.wf_nil size)

theorem Memory.wf_ofBytes {size : Nat} {bs : List Byte} (hi : bs.length ≤ size) : Memory.wf size (Memory.ofBytes bs) = true :=
  (Memory.stored_ofBytes hi).1

theorem Memory.read_ofBytes (bs : List Byte) (a : Nat) : Memory.read (Memory.ofBytes bs) a = bs.getD a 0 := by
  rw [Memory.ofBytes, Memory.read_writeRange (size := bs.length) bs (by omega) (Memory.wf_nil _)]
  by_cases h : a < bs.length
  · rw [if_pos (by omega)]; simp
  · rw [if_neg (by omega), List.getD_eq_getElem?_getD, List.getElem?_eq_none (by omega)]; rfl

@[simp] theorem Memory.readRange_length (m : Memory) (n : Nat) : ∀ i, (Memory.readRange m i n).length = n := by
  induction n with
  | zero => intro i; rfl
  | succ n ih => intro i; simp [Memory.readRange, ih]

theorem Memory.readRange_getElem? (m : Memory) (n : Nat) : ∀ i j, j < n →
    (Memory.readRange m i n)[j]? = some (Memory.read m (i + j)) := by
  induction n with
  | zero => intro i j h; omega
  | succ n ih =>
    intro i j h
    cases j with
    | zero => simp [Memory.readRange]
    | succ j => simp only [Memory.readRange, List.getElem?_cons_succ]; rw [ih (i + 1) j (by omega)]; congr 2; omega

theorem Memory.readRange_getD (m : Memory) (n i j : Nat) (h : j < n) :
    (Memory.readRange m i n).getD j 0 = Memory.read m (i + j) := by
  rw [List.getD_eq_getElem?_getD, Memory.readRange_getElem? m n i j h]; rfl

/-- Two memories that read alike in a range have the same bytes there. -/
theorem Memory.readRange_congr {m m' : Memory} {i n : Nat} (h : ∀ a, i ≤ a → a < i + n → Memory.read m a = Memory.read m' a) :
    Memory.readRange m i n = Memory.readRange m' i n := by
  apply List.ext_getElem?
  intro j
  by_cases hj : j < n
  · rw [Memory.readRange_getElem? m n i j hj, Memory.readRange_getElem? m' n i j hj, h (i + j) (by omega) (by omega)]
  · rw [List.getElem?_eq_none (by simp; omega), List.getElem?_eq_none (by simp; omega)]

/-- Canonical memories that read alike are equal. -/
theorem Memory.ext {size : Nat} : ∀ {m m' : Memory}, Memory.wf size m = true → Memory.wf size m' = true →
    (∀ a, Memory.read m a = Memory.read m' a) → m = m' := by
  intro m
  induction m with
  | nil =>
    intro m' _ h' hr
    cases m' with
    | nil => rfl
    | cons d m' =>
      obtain ⟨b, y⟩ := d
      rw [Memory.wf_cons] at h'
      have := hr b
      simp [Memory.read] at this
      exact absurd this.symm h'.2.1
  | cons c m ih =>
    intro m' h h' hr
    obtain ⟨a, x⟩ := c
    rw [Memory.wf_cons] at h
    cases m' with
    | nil =>
      have := hr a
      simp [Memory.read] at this
      exact absurd this h.2.1
    | cons d m' =>
      obtain ⟨b, y⟩ := d
      rw [Memory.wf_cons] at h'
      have hz : ∀ q, q ≤ a → Memory.read m q = 0 := fun q hq =>
        Memory.read_of_forall_ne (fun e he => by have := h.2.2.1 e he; omega)
      have hz' : ∀ q, q ≤ b → Memory.read m' q = 0 := fun q hq =>
        Memory.read_of_forall_ne (fun e he => by have := h'.2.2.1 e he; omega)
      have hab : a = b := by
        rcases Nat.lt_trichotomy a b with hlt | heq | hgt
        · exfalso
          have := hr a
          simp only [Memory.read, if_true] at this
          rw [if_neg (by omega), hz' a (by omega)] at this
          exact h.2.1 this
        · exact heq
        · exfalso
          have := hr b
          simp only [Memory.read, if_true] at this
          rw [if_neg (by omega), hz b (by omega)] at this
          exact h'.2.1 this.symm
      subst hab
      have hxy : x = y := by have := hr a; simpa [Memory.read] using this
      subst hxy
      congr 1
      refine ih h.2.2.2 h'.2.2.2 ?_
      intro q
      by_cases hq : q = a
      · subst hq; rw [hz q (by omega), hz' q (by omega)]
      · have := hr q; simpa [Memory.read, hq] using this

end Sys2Proof.Machine
end

