-- ==== Sys2Proof/Laws/State.lean ====
section
/-! SUPPORT. One lemma for each field of State under each update, all by rfl, and how the issuing context's bank is read back. -/

namespace Sys2Proof.Machine

variable (s : State)

@[simp] theorem State.setCtx_cfg (c : Ctx) : (s.setCtx c).cfg = s.cfg := rfl
@[simp] theorem State.setCtx_ctxs (c : Ctx) : (s.setCtx c).ctxs = s.ctxs.set s.cur c := rfl
@[simp] theorem State.setCtx_cur (c : Ctx) : (s.setCtx c).cur = s.cur := rfl
@[simp] theorem State.setCtx_ring (c : Ctx) : (s.setCtx c).ring = s.ring := rfl
@[simp] theorem State.setCtx_devs (c : Ctx) : (s.setCtx c).devs = s.devs := rfl
@[simp] theorem State.setCtx_cntActive (c : Ctx) : (s.setCtx c).cntActive = s.cntActive := rfl
@[simp] theorem State.setCtx_cntPrecached (c : Ctx) : (s.setCtx c).cntPrecached = s.cntPrecached := rfl
@[simp] theorem State.setCtx_gate (c : Ctx) : (s.setCtx c).gate = s.gate := rfl
@[simp] theorem State.setCtx_fatal (c : Ctx) : (s.setCtx c).fatal = s.fatal := rfl
@[simp] theorem State.setCtx_events (c : Ctx) : (s.setCtx c).events = s.events := rfl
@[simp] theorem State.setCtx_now (c : Ctx) : (s.setCtx c).now = s.now := rfl
@[simp] theorem State.setCtx_env (c : Ctx) : (s.setCtx c).env = s.env := rfl

@[simp] theorem State.setRing_cfg (r : Ring) : (s.setRing r).cfg = s.cfg := rfl
@[simp] theorem State.setRing_ctxs (r : Ring) : (s.setRing r).ctxs = s.ctxs := rfl
@[simp] theorem State.setRing_cur (r : Ring) : (s.setRing r).cur = s.cur := rfl
@[simp] theorem State.setRing_ring (r : Ring) : (s.setRing r).ring = r := rfl
@[simp] theorem State.setRing_devs (r : Ring) : (s.setRing r).devs = s.devs := rfl
@[simp] theorem State.setRing_cntActive (r : Ring) : (s.setRing r).cntActive = s.cntActive := rfl
@[simp] theorem State.setRing_cntPrecached (r : Ring) : (s.setRing r).cntPrecached = s.cntPrecached := rfl
@[simp] theorem State.setRing_gate (r : Ring) : (s.setRing r).gate = s.gate := rfl
@[simp] theorem State.setRing_fatal (r : Ring) : (s.setRing r).fatal = s.fatal := rfl
@[simp] theorem State.setRing_events (r : Ring) : (s.setRing r).events = s.events := rfl
@[simp] theorem State.setRing_now (r : Ring) : (s.setRing r).now = s.now := rfl
@[simp] theorem State.setRing_env (r : Ring) : (s.setRing r).env = s.env := rfl

@[simp] theorem State.setGate_cfg (g : Gate) : (s.setGate g).cfg = s.cfg := rfl
@[simp] theorem State.setGate_ctxs (g : Gate) : (s.setGate g).ctxs = s.ctxs := rfl
@[simp] theorem State.setGate_cur (g : Gate) : (s.setGate g).cur = s.cur := rfl
@[simp] theorem State.setGate_ring (g : Gate) : (s.setGate g).ring = s.ring := rfl
@[simp] theorem State.setGate_devs (g : Gate) : (s.setGate g).devs = s.devs := rfl
@[simp] theorem State.setGate_cntActive (g : Gate) : (s.setGate g).cntActive = s.cntActive := rfl
@[simp] theorem State.setGate_cntPrecached (g : Gate) : (s.setGate g).cntPrecached = s.cntPrecached := rfl
@[simp] theorem State.setGate_gate (g : Gate) : (s.setGate g).gate = g := rfl
@[simp] theorem State.setGate_fatal (g : Gate) : (s.setGate g).fatal = s.fatal := rfl
@[simp] theorem State.setGate_events (g : Gate) : (s.setGate g).events = s.events := rfl
@[simp] theorem State.setGate_now (g : Gate) : (s.setGate g).now = s.now := rfl
@[simp] theorem State.setGate_env (g : Gate) : (s.setGate g).env = s.env := rfl

@[simp] theorem State.setDev_cfg (k : Nat) (e : Dev) : (s.setDev k e).cfg = s.cfg := rfl
@[simp] theorem State.setDev_ctxs (k : Nat) (e : Dev) : (s.setDev k e).ctxs = s.ctxs := rfl
@[simp] theorem State.setDev_cur (k : Nat) (e : Dev) : (s.setDev k e).cur = s.cur := rfl
@[simp] theorem State.setDev_ring (k : Nat) (e : Dev) : (s.setDev k e).ring = s.ring := rfl
@[simp] theorem State.setDev_devs (k : Nat) (e : Dev) : (s.setDev k e).devs = s.devs.set k e := rfl
@[simp] theorem State.setDev_cntActive (k : Nat) (e : Dev) : (s.setDev k e).cntActive = s.cntActive := rfl
@[simp] theorem State.setDev_cntPrecached (k : Nat) (e : Dev) : (s.setDev k e).cntPrecached = s.cntPrecached := rfl
@[simp] theorem State.setDev_gate (k : Nat) (e : Dev) : (s.setDev k e).gate = s.gate := rfl
@[simp] theorem State.setDev_fatal (k : Nat) (e : Dev) : (s.setDev k e).fatal = s.fatal := rfl
@[simp] theorem State.setDev_events (k : Nat) (e : Dev) : (s.setDev k e).events = s.events := rfl
@[simp] theorem State.setDev_now (k : Nat) (e : Dev) : (s.setDev k e).now = s.now := rfl
@[simp] theorem State.setDev_env (k : Nat) (e : Dev) : (s.setDev k e).env = s.env := rfl

@[simp] theorem State.setFatal_cfg : (s.setFatal).cfg = s.cfg := rfl
@[simp] theorem State.setFatal_ctxs : (s.setFatal).ctxs = s.ctxs := rfl
@[simp] theorem State.setFatal_cur : (s.setFatal).cur = s.cur := rfl
@[simp] theorem State.setFatal_ring : (s.setFatal).ring = s.ring := rfl
@[simp] theorem State.setFatal_devs : (s.setFatal).devs = s.devs := rfl
@[simp] theorem State.setFatal_cntActive : (s.setFatal).cntActive = s.cntActive := rfl
@[simp] theorem State.setFatal_cntPrecached : (s.setFatal).cntPrecached = s.cntPrecached := rfl
@[simp] theorem State.setFatal_gate : (s.setFatal).gate = s.gate := rfl
@[simp] theorem State.setFatal_fatal : (s.setFatal).fatal = true := rfl
@[simp] theorem State.setFatal_events : (s.setFatal).events = s.events := rfl
@[simp] theorem State.setFatal_now : (s.setFatal).now = s.now := rfl
@[simp] theorem State.setFatal_env : (s.setFatal).env = s.env := rfl

@[simp] theorem State.logEvent_cfg (e : PortEvent) : (s.logEvent e).cfg = s.cfg := rfl
@[simp] theorem State.logEvent_ctxs (e : PortEvent) : (s.logEvent e).ctxs = s.ctxs := rfl
@[simp] theorem State.logEvent_cur (e : PortEvent) : (s.logEvent e).cur = s.cur := rfl
@[simp] theorem State.logEvent_ring (e : PortEvent) : (s.logEvent e).ring = s.ring := rfl
@[simp] theorem State.logEvent_devs (e : PortEvent) : (s.logEvent e).devs = s.devs := rfl
@[simp] theorem State.logEvent_cntActive (e : PortEvent) : (s.logEvent e).cntActive = s.cntActive := rfl
@[simp] theorem State.logEvent_cntPrecached (e : PortEvent) : (s.logEvent e).cntPrecached = s.cntPrecached := rfl
@[simp] theorem State.logEvent_gate (e : PortEvent) : (s.logEvent e).gate = s.gate := rfl
@[simp] theorem State.logEvent_fatal (e : PortEvent) : (s.logEvent e).fatal = s.fatal := rfl
@[simp] theorem State.logEvent_events (e : PortEvent) : (s.logEvent e).events = s.events ++ [e] := rfl
@[simp] theorem State.logEvent_now (e : PortEvent) : (s.logEvent e).now = s.now := rfl
@[simp] theorem State.logEvent_env (e : PortEvent) : (s.logEvent e).env = s.env := rfl

@[simp] theorem State.transmit_cfg (p : List Byte) (rep : Byte) : (s.transmit p rep).cfg = s.cfg := rfl
@[simp] theorem State.transmit_ctxs (p : List Byte) (rep : Byte) : (s.transmit p rep).ctxs = s.ctxs := rfl
@[simp] theorem State.transmit_cur (p : List Byte) (rep : Byte) : (s.transmit p rep).cur = s.cur := rfl
@[simp] theorem State.transmit_ring (p : List Byte) (rep : Byte) : (s.transmit p rep).ring = s.ring := rfl
@[simp] theorem State.transmit_devs (p : List Byte) (rep : Byte) : (s.transmit p rep).devs = s.devs := rfl
@[simp] theorem State.transmit_cntActive (p : List Byte) (rep : Byte) : (s.transmit p rep).cntActive = s.cntActive := rfl
@[simp] theorem State.transmit_cntPrecached (p : List Byte) (rep : Byte) : (s.transmit p rep).cntPrecached = s.cntPrecached := rfl
@[simp] theorem State.transmit_gate (p : List Byte) (rep : Byte) : (s.transmit p rep).gate = s.gate := rfl
@[simp] theorem State.transmit_fatal (p : List Byte) (rep : Byte) : (s.transmit p rep).fatal = s.fatal := rfl
@[simp] theorem State.transmit_events (p : List Byte) (rep : Byte) : (s.transmit p rep).events = s.events ++ [.transmit p p.length rep] := rfl
@[simp] theorem State.transmit_now (p : List Byte) (rep : Byte) : (s.transmit p rep).now = s.now := rfl
@[simp] theorem State.transmit_env (p : List Byte) (rep : Byte) : (s.transmit p rep).env = s.env := rfl

@[simp] theorem State.afterNonce_cfg : (s.afterNonce).cfg = s.cfg := rfl
@[simp] theorem State.afterNonce_ctxs : (s.afterNonce).ctxs = s.ctxs := rfl
@[simp] theorem State.afterNonce_cur : (s.afterNonce).cur = s.cur := rfl
@[simp] theorem State.afterNonce_ring : (s.afterNonce).ring = s.ring := rfl
@[simp] theorem State.afterNonce_devs : (s.afterNonce).devs = s.devs := rfl
@[simp] theorem State.afterNonce_cntActive : (s.afterNonce).cntActive = s.cntActive := rfl
@[simp] theorem State.afterNonce_cntPrecached : (s.afterNonce).cntPrecached = s.cntPrecached := rfl
@[simp] theorem State.afterNonce_gate : (s.afterNonce).gate = s.gate := rfl
@[simp] theorem State.afterNonce_fatal : (s.afterNonce).fatal = s.fatal := rfl
@[simp] theorem State.afterNonce_events : (s.afterNonce).events = s.events := rfl
@[simp] theorem State.afterNonce_now : (s.afterNonce).now = s.now := rfl
@[simp] theorem State.afterNonce_env : (s.afterNonce).env = { s.env with nonces := s.env.nonces.tail, drawNo := s.env.drawNo + 1 } := rfl

@[simp] theorem State.afterValueBytes_cfg : (s.afterValueBytes).cfg = s.cfg := rfl
@[simp] theorem State.afterValueBytes_ctxs : (s.afterValueBytes).ctxs = s.ctxs := rfl
@[simp] theorem State.afterValueBytes_cur : (s.afterValueBytes).cur = s.cur := rfl
@[simp] theorem State.afterValueBytes_ring : (s.afterValueBytes).ring = s.ring := rfl
@[simp] theorem State.afterValueBytes_devs : (s.afterValueBytes).devs = s.devs := rfl
@[simp] theorem State.afterValueBytes_cntActive : (s.afterValueBytes).cntActive = s.cntActive := rfl
@[simp] theorem State.afterValueBytes_cntPrecached : (s.afterValueBytes).cntPrecached = s.cntPrecached := rfl
@[simp] theorem State.afterValueBytes_gate : (s.afterValueBytes).gate = s.gate := rfl
@[simp] theorem State.afterValueBytes_fatal : (s.afterValueBytes).fatal = s.fatal := rfl
@[simp] theorem State.afterValueBytes_events : (s.afterValueBytes).events = s.events := rfl
@[simp] theorem State.afterValueBytes_now : (s.afterValueBytes).now = s.now := rfl
@[simp] theorem State.afterValueBytes_env : (s.afterValueBytes).env = { s.env with valueDraws := s.env.valueDraws.tail, drawNo := s.env.drawNo + 1 } := rfl

@[simp] theorem State.afterInit_cfg : (s.afterInit).cfg = s.cfg := rfl
@[simp] theorem State.afterInit_ctxs : (s.afterInit).ctxs = s.ctxs := rfl
@[simp] theorem State.afterInit_cur : (s.afterInit).cur = s.cur := rfl
@[simp] theorem State.afterInit_ring : (s.afterInit).ring = s.ring := rfl
@[simp] theorem State.afterInit_devs : (s.afterInit).devs = s.devs := rfl
@[simp] theorem State.afterInit_cntActive : (s.afterInit).cntActive = s.cntActive := rfl
@[simp] theorem State.afterInit_cntPrecached : (s.afterInit).cntPrecached = s.cntPrecached := rfl
@[simp] theorem State.afterInit_gate : (s.afterInit).gate = s.gate := rfl
@[simp] theorem State.afterInit_fatal : (s.afterInit).fatal = s.fatal := rfl
@[simp] theorem State.afterInit_events : (s.afterInit).events = s.events ++ [.initCall s.initAnswer] := rfl
@[simp] theorem State.afterInit_now : (s.afterInit).now = s.now := rfl
@[simp] theorem State.afterInit_env : (s.afterInit).env = { s.env with initAnswers := s.env.initAnswers.tail, drawNo := s.env.drawNo + 1 } := rfl

@[simp] theorem State.afterWait_cfg : (s.afterWait).cfg = s.cfg := rfl
@[simp] theorem State.afterWait_ctxs : (s.afterWait).ctxs = s.ctxs := rfl
@[simp] theorem State.afterWait_cur : (s.afterWait).cur = s.cur := rfl
@[simp] theorem State.afterWait_ring : (s.afterWait).ring = s.ring := rfl
@[simp] theorem State.afterWait_devs : (s.afterWait).devs = s.devs := rfl
@[simp] theorem State.afterWait_cntActive : (s.afterWait).cntActive = s.cntActive := rfl
@[simp] theorem State.afterWait_cntPrecached : (s.afterWait).cntPrecached = s.cntPrecached := rfl
@[simp] theorem State.afterWait_gate : (s.afterWait).gate = s.gate := rfl
@[simp] theorem State.afterWait_fatal : (s.afterWait).fatal = s.fatal := rfl
@[simp] theorem State.afterWait_events : (s.afterWait).events = s.events ++ [.hasFrameWaiting s.waitAnswer] := rfl
@[simp] theorem State.afterWait_now : (s.afterWait).now = s.now := rfl
@[simp] theorem State.afterWait_env : (s.afterWait).env = { s.env with waitAnswers := s.env.waitAnswers.tail, drawNo := s.env.drawNo + 1 } := rfl

@[simp] theorem State.afterRead_cfg : (s.afterRead).cfg = s.cfg := rfl
@[simp] theorem State.afterRead_ctxs : (s.afterRead).ctxs = s.ctxs := rfl
@[simp] theorem State.afterRead_cur : (s.afterRead).cur = s.cur := rfl
@[simp] theorem State.afterRead_ring : (s.afterRead).ring = s.ring := rfl
@[simp] theorem State.afterRead_devs : (s.afterRead).devs = s.devs := rfl
@[simp] theorem State.afterRead_cntActive : (s.afterRead).cntActive = s.cntActive := rfl
@[simp] theorem State.afterRead_cntPrecached : (s.afterRead).cntPrecached = s.cntPrecached := rfl
@[simp] theorem State.afterRead_gate : (s.afterRead).gate = s.gate := rfl
@[simp] theorem State.afterRead_fatal : (s.afterRead).fatal = s.fatal := rfl
@[simp] theorem State.afterRead_events : (s.afterRead).events = s.events ++ [.readFrame 67 s.readAnswer] := rfl
@[simp] theorem State.afterRead_now : (s.afterRead).now = s.now := rfl
@[simp] theorem State.afterRead_env : (s.afterRead).env = { s.env with readAnswers := s.env.readAnswers.tail, drawNo := s.env.drawNo + 1 } := rfl

@[simp] theorem State.select_cfg (n : Nat) : (s.select n).cfg = s.cfg := rfl
@[simp] theorem State.select_ctxs (n : Nat) : (s.select n).ctxs = s.ctxs := rfl
@[simp] theorem State.select_cur (n : Nat) : (s.select n).cur = n := rfl
@[simp] theorem State.select_ring (n : Nat) : (s.select n).ring = s.ring := rfl
@[simp] theorem State.select_devs (n : Nat) : (s.select n).devs = s.devs := rfl
@[simp] theorem State.select_cntActive (n : Nat) : (s.select n).cntActive = s.cntActive := rfl
@[simp] theorem State.select_cntPrecached (n : Nat) : (s.select n).cntPrecached = s.cntPrecached := rfl
@[simp] theorem State.select_gate (n : Nat) : (s.select n).gate = s.gate := rfl
@[simp] theorem State.select_fatal (n : Nat) : (s.select n).fatal = s.fatal := rfl
@[simp] theorem State.select_events (n : Nat) : (s.select n).events = s.events := rfl
@[simp] theorem State.select_now (n : Nat) : (s.select n).now = s.now := rfl
@[simp] theorem State.select_env (n : Nat) : (s.select n).env = s.env := rfl

@[simp] theorem State.afterInput_cfg : (s.afterInput).cfg = s.cfg := rfl
@[simp] theorem State.afterInput_ctxs : (s.afterInput).ctxs = s.ctxs := rfl
@[simp] theorem State.afterInput_cur : (s.afterInput).cur = s.cur := rfl
@[simp] theorem State.afterInput_ring : (s.afterInput).ring = s.ring := rfl
@[simp] theorem State.afterInput_devs : (s.afterInput).devs = s.devs := rfl
@[simp] theorem State.afterInput_cntActive : (s.afterInput).cntActive = s.cntActive := rfl
@[simp] theorem State.afterInput_cntPrecached : (s.afterInput).cntPrecached = s.cntPrecached := rfl
@[simp] theorem State.afterInput_gate : (s.afterInput).gate = s.gate := rfl
@[simp] theorem State.afterInput_fatal : (s.afterInput).fatal = s.fatal := rfl
@[simp] theorem State.afterInput_events : (s.afterInput).events = s.events := rfl
@[simp] theorem State.afterInput_now : (s.afterInput).now = s.now := rfl
@[simp] theorem State.afterInput_env : (s.afterInput).env = { s.env with inputs := s.env.inputs.tail, inputNo := s.env.inputNo + 1 } := rfl

@[simp] theorem State.tick_cfg (d : Nat) : (s.tick d).cfg = s.cfg := rfl
@[simp] theorem State.tick_ctxs (d : Nat) : (s.tick d).ctxs = s.ctxs := rfl
@[simp] theorem State.tick_cur (d : Nat) : (s.tick d).cur = s.cur := rfl
@[simp] theorem State.tick_ring (d : Nat) : (s.tick d).ring = s.ring := rfl
@[simp] theorem State.tick_devs (d : Nat) : (s.tick d).devs = s.devs := rfl
@[simp] theorem State.tick_cntActive (d : Nat) : (s.tick d).cntActive = s.cntActive := rfl
@[simp] theorem State.tick_cntPrecached (d : Nat) : (s.tick d).cntPrecached = s.cntPrecached := rfl
@[simp] theorem State.tick_gate (d : Nat) : (s.tick d).gate = s.gate := rfl
@[simp] theorem State.tick_fatal (d : Nat) : (s.tick d).fatal = s.fatal := rfl
@[simp] theorem State.tick_events (d : Nat) : (s.tick d).events = s.events := rfl
@[simp] theorem State.tick_now (d : Nat) : (s.tick d).now = satAdd s.now d := rfl
@[simp] theorem State.tick_env (d : Nat) : (s.tick d).env = s.env := rfl

@[simp] theorem State.grantGate_cfg : (s.grantGate).cfg = s.cfg := rfl
@[simp] theorem State.grantGate_ctxs : (s.grantGate).ctxs = s.ctxs := rfl
@[simp] theorem State.grantGate_cur : (s.grantGate).cur = s.cur := rfl
@[simp] theorem State.grantGate_ring : (s.grantGate).ring = s.ring := rfl
@[simp] theorem State.grantGate_devs : (s.grantGate).devs = s.devs := rfl
@[simp] theorem State.grantGate_cntActive : (s.grantGate).cntActive = s.cntActive := rfl
@[simp] theorem State.grantGate_cntPrecached : (s.grantGate).cntPrecached = s.cntPrecached := rfl
@[simp] theorem State.grantGate_gate : (s.grantGate).gate = { init := true, held := true, owner := BitVec.ofNat 8 s.cur } := rfl
@[simp] theorem State.grantGate_fatal : (s.grantGate).fatal = s.fatal := rfl
@[simp] theorem State.grantGate_events : (s.grantGate).events = s.events := rfl
@[simp] theorem State.grantGate_now : (s.grantGate).now = s.now := rfl
@[simp] theorem State.grantGate_env : (s.grantGate).env = s.env := rfl

@[simp] theorem State.freeGate_cfg : (s.freeGate).cfg = s.cfg := rfl
@[simp] theorem State.freeGate_ctxs : (s.freeGate).ctxs = s.ctxs := rfl
@[simp] theorem State.freeGate_cur : (s.freeGate).cur = s.cur := rfl
@[simp] theorem State.freeGate_ring : (s.freeGate).ring = s.ring := rfl
@[simp] theorem State.freeGate_devs : (s.freeGate).devs = s.devs := rfl
@[simp] theorem State.freeGate_cntActive : (s.freeGate).cntActive = s.cntActive := rfl
@[simp] theorem State.freeGate_cntPrecached : (s.freeGate).cntPrecached = s.cntPrecached := rfl
@[simp] theorem State.freeGate_gate : (s.freeGate).gate = { s.gate with held := false } := rfl
@[simp] theorem State.freeGate_fatal : (s.freeGate).fatal = s.fatal := rfl
@[simp] theorem State.freeGate_events : (s.freeGate).events = s.events := rfl
@[simp] theorem State.freeGate_now : (s.freeGate).now = s.now := rfl
@[simp] theorem State.freeGate_env : (s.freeGate).env = s.env := rfl

/-! ## The issuing context's bank -/

theorem State.ctx_of {s : State} {c : Ctx} (h : s.ctxs[s.cur]? = some c) : s.ctx = c := by
  simp [State.ctx, List.getD_eq_getElem?_getD, h]

theorem State.ctx_get {s : State} (h : s.cur < s.ctxs.length) : s.ctxs[s.cur]? = some s.ctx := by
  simp [State.ctx, List.getD_eq_getElem?_getD, h]

theorem State.cur_lt {s : State} {c : Ctx} (h : s.ctxs[s.cur]? = some c) : s.cur < s.ctxs.length :=
  (List.getElem?_eq_some_iff.mp h).1

theorem State.setCtx_ctx_of_lt {s : State} (h : s.cur < s.ctxs.length) (c : Ctx) : (s.setCtx c).ctx = c := by
  simp [State.ctx, List.getD_eq_getElem?_getD, h]

@[simp] theorem State.setCtx_setCtx (a b : Ctx) : (s.setCtx a).setCtx b = s.setCtx b := by
  simp [State.setCtx]

/-- An update that keeps the banks keeps the issuing one. -/
theorem State.ctx_congr {s t : State} (h : t.ctxs = s.ctxs) (k : t.cur = s.cur) : t.ctx = s.ctx := by
  simp [State.ctx, h, k]

@[simp] theorem State.setRing_ctx (r : Ring) : (s.setRing r).ctx = s.ctx := rfl
@[simp] theorem State.setGate_ctx (g : Gate) : (s.setGate g).ctx = s.ctx := rfl
@[simp] theorem State.setDev_ctx (k : Nat) (e : Dev) : (s.setDev k e).ctx = s.ctx := rfl
@[simp] theorem State.setFatal_ctx : (s.setFatal).ctx = s.ctx := rfl
@[simp] theorem State.logEvent_ctx (e : PortEvent) : (s.logEvent e).ctx = s.ctx := rfl
@[simp] theorem State.transmit_ctx (p : List Byte) (rep : Byte) : (s.transmit p rep).ctx = s.ctx := rfl
@[simp] theorem State.afterNonce_ctx : (s.afterNonce).ctx = s.ctx := rfl
@[simp] theorem State.afterValueBytes_ctx : (s.afterValueBytes).ctx = s.ctx := rfl
@[simp] theorem State.afterInit_ctx : (s.afterInit).ctx = s.ctx := rfl
@[simp] theorem State.afterWait_ctx : (s.afterWait).ctx = s.ctx := rfl
@[simp] theorem State.afterRead_ctx : (s.afterRead).ctx = s.ctx := rfl
@[simp] theorem State.afterInput_ctx : (s.afterInput).ctx = s.ctx := rfl
@[simp] theorem State.tick_ctx (d : Nat) : (s.tick d).ctx = s.ctx := rfl
@[simp] theorem State.grantGate_ctx : (s.grantGate).ctx = s.ctx := rfl
@[simp] theorem State.freeGate_ctx : (s.freeGate).ctx = s.ctx := rfl

/-- `finish` writes CODE and BUSY of the issuing bank, and nothing else (00_scope.md R10). -/
theorem State.finish_eq {s : State} {c : Ctx} (h : s.ctx = c) (e : Code) : s.finish e = s.setCtx (c.done e) := by
  subst h; rfl

/-- `raise` is `finish` with an error (60_exceptions.md R153). -/
theorem State.raise_eq {s : State} {c : Ctx} (h : s.ctx = c) (e : Code) : s.raise e = s.setCtx (c.done e) :=
  State.finish_eq h e

@[simp] theorem State.setCtx_finish {s : State} (h : s.cur < s.ctxs.length) (c : Ctx) (e : Code) :
    (s.setCtx c).finish e = s.setCtx (c.done e) := by
  rw [State.finish_eq (State.setCtx_ctx_of_lt h c), State.setCtx_setCtx]

/-- `endPoll` ends the operation with RXS at OFF (44_retry_sequencer.md R137). -/
theorem State.endPoll_eq {s : State} {c : Ctx} (h : s.ctxs[s.cur]? = some c) (e : Code) :
    s.endPoll e = s.setCtx (Ctx.done { c with poll := { c.poll with rxs := .off } } e) := by
  rw [State.endPoll, State.setCtx_finish (State.cur_lt h), State.ctx_of h]

end Sys2Proof.Machine
end

