-- ==== Sys2Proof/Laws/Ops.lean ====
section
/-! SUPPORT. One lemma for each shared operation that says what it can do. -/

namespace Sys2Proof.Machine

/-! ## Gate -/

theorem State.holdsGate_iff {s : State} :
    s.holdsGate = true ↔ s.gate.held = true ∧ s.gate.owner = BitVec.ofNat 8 s.cur := by
  simp [State.holdsGate]

theorem State.holdsGate_eq_false {s : State} :
    s.holdsGate = false ↔ ¬(s.gate.held = true ∧ s.gate.owner = BitVec.ofNat 8 s.cur) := by
  rw [← Bool.not_eq_true, State.holdsGate_iff]

theorem State.otherHolds_iff {s : State} :
    s.otherHolds = true ↔ s.gate.held = true ∧ s.gate.owner ≠ BitVec.ofNat 8 s.cur := by
  simp [State.otherHolds]

/-- What `gateTake` can do (45_radio_gate.md R146). -/
theorem State.gateTake_cases (s : State) :
    (s.holdsGate = true ∧ s.gateTake = (.already, s))
      ∨ (s.holdsGate = false ∧ s.gate.init = true ∧ s.gateTake = (.taken, s.grantGate))
      ∨ (s.holdsGate = false ∧ s.gate.init = false ∧ s.initAnswer = true
          ∧ s.gateTake = (.taken, (s.afterInit.logEvent (.setMode s.cfg.defaultMode)).grantGate))
      ∨ (s.holdsGate = false ∧ s.gate.init = false ∧ s.initAnswer = false ∧ s.gateTake = (.fail, s.afterInit)) := by
  unfold State.gateTake
  cases s.holdsGate <;> cases s.gate.init <;> cases s.initAnswer <;> simp

/-! ## Device table -/

theorem State.dev_of {s : State} {k : Nat} {e : Dev} (h : s.devs[k]? = some e) : s.dev k = e := by
  simp [State.dev, List.getD_eq_getElem?_getD, h]

theorem State.dev_of_ge {s : State} {k : Nat} (h : s.devs.length ≤ k) : s.dev k = Dev.blank := by
  simp [State.dev, List.getD_eq_getElem?_getD, List.getElem?_eq_none h]

/-- `lookup` finds an entry of that ID (44_retry_sequencer.md R119). -/
theorem State.lookup_some {s : State} {d : BitVec 24} {k : Nat} (h : s.lookup d = some k) :
    ∃ e, s.devs[k]? = some e ∧ e.devid = d := by
  rw [State.lookup, List.findIdx?_eq_some_iff_getElem] at h
  obtain ⟨hk, hd, _⟩ := h
  exact ⟨s.devs[k], List.getElem?_eq_getElem hk, by simpa using hd⟩

/-- `lookup` answers NONE exactly if no entry has the ID (44_retry_sequencer.md R119). -/
theorem State.lookup_none {s : State} {d : BitVec 24} : s.lookup d = none ↔ ∀ e ∈ s.devs, e.devid ≠ d := by
  simp [State.lookup, List.findIdx?_eq_none_iff]

/-- With unique IDs, `lookup` finds the entry that has the ID (44_retry_sequencer.md R119). -/
theorem State.lookup_of_nodup {s : State} (hn : (s.devs.map (·.devid)).Nodup) {k : Nat} {e : Dev} {d : BitVec 24}
    (h : s.devs[k]? = some e) (hd : e.devid = d) : s.lookup d = some k := by
  cases hl : s.lookup d with
  | none => exact absurd hd (State.lookup_none.mp hl e (List.mem_of_getElem? h))
  | some j =>
    obtain ⟨e', he', hd'⟩ := State.lookup_some hl
    obtain ⟨hk, hke⟩ := List.getElem?_eq_some_iff.mp h
    obtain ⟨hj, hje⟩ := List.getElem?_eq_some_iff.mp he'
    have hkm : k < (s.devs.map (·.devid)).length := by simpa using hk
    have hjm : j < (s.devs.map (·.devid)).length := by simpa using hj
    have : (s.devs.map (·.devid))[j] = (s.devs.map (·.devid))[k] := by simp [hke, hje, hd, hd']
    rw [(List.Nodup.getElem_inj_iff hn).mp this]

theorem State.registryOk_iff {s : State} :
    s.registryOk = true ↔ (∀ e ∈ s.devs, e.ok = true) ∧ (s.devs.map (·.devid)).Nodup := by
  simp [State.registryOk]

theorem State.lookup_of_registryOk {s : State} (hr : s.registryOk = true) {k : Nat} {e : Dev} {d : BitVec 24}
    (h : s.devs[k]? = some e) (hd : e.devid = d) : s.lookup d = some k :=
  State.lookup_of_nodup (State.registryOk_iff.mp hr).2 h hd

theorem State.dev_ok {s : State} (hr : s.registryOk = true) {k : Nat} {e : Dev} (h : s.devs[k]? = some e) : e.ok = true :=
  (State.registryOk_iff.mp hr).1 e (List.mem_of_getElem? h)

theorem Dev.ok_iff {e : Dev} :
    e.ok = true ↔ (e.hasCc = (e.cls == .smallWindow)) ∧ (e.ext = .none ∨ e.hasCc = true)
      ∧ (e.cc.pending = true → e.hasCc = true ∧ 11 ≤ e.cc.flen.toNat) ∧ e.cc.flen.toNat ≤ frameMax
      ∧ Memory.wf e.cc.flen.toNat e.cc.frame = true := by
  simp only [Dev.ok, Bool.and_eq_true, beq_iff_eq, Bool.or_eq_true, decide_eq_true_eq, and_assoc, Bool.not_eq_true']
  cases e.cc.pending <;> simp

/-- What `getOrCreate` can do (44_retry_sequencer.md R121). -/
theorem State.getOrCreate_cases (s : State) (d : BitVec 24) (m p : Byte) (j n : Bool) (t : BitVec 64) :
    (∃ k, s.lookup d = some k ∧ s.getOrCreate d m p j n t = some (k, false, s))
      ∨ (s.lookup d = none ∧ s.devs.length = s.cfg.devMax ∧ s.getOrCreate d m p j n t = none)
      ∨ (s.lookup d = none ∧ s.devs.length ≠ s.cfg.devMax
          ∧ s.getOrCreate d m p j n t
            = some (s.devs.length, true, { s with devs := s.devs ++ [newDev s.cfg d m p j n t] })) := by
  unfold State.getOrCreate
  cases h : s.lookup d with
  | some k => simp
  | none => by_cases hl : s.devs.length = s.cfg.devMax <;> simp [hl]

/-! ## Records and cached commands -/

/-- What `encRecord` can do (41_frame_encoder.md R87). -/
theorem State.encRecord_cases (s : State) (cmd : Byte) (d : BitVec 32) :
    (cmdLookup s.cfg cmd = none ∧ s.encRecord cmd d = none)
      ∨ ∃ r v u, cmdLookup s.cfg cmd = some r ∧ ValueBytes s r d v u ∧ s.encRecord cmd d = some (recordHeader r ++ v, u) := by
  unfold State.encRecord
  cases h : cmdLookup s.cfg cmd with
  | none => left; simp
  | some r =>
    right
    cases hv : encValue r d with
    | some v => exact ⟨r, v, s, rfl, Or.inl ⟨hv, rfl⟩, by simp [hv]⟩
    | none => exact ⟨r, s.valueBytes r.len.toNat, s.afterValueBytes, rfl, Or.inr ⟨hv, rfl, rfl⟩, by simp [hv]⟩

theorem State.encRecord_of {s : State} {cmd : Byte} {d : BitVec 32} {r : CmdRow} {v : List Byte} {u : State}
    (h : cmdLookup s.cfg cmd = some r) (hv : ValueBytes s r d v u) :
    s.encRecord cmd d = some (recordHeader r ++ v, u) := by
  rcases hv with ⟨h1, rfl⟩ | ⟨h1, rfl, rfl⟩ <;> simp [State.encRecord, h, h1]

theorem State.encRecord_unknown {s : State} {cmd : Byte} {d : BitVec 32} (h : cmdLookup s.cfg cmd = none) :
    s.encRecord cmd d = none := by
  simp [State.encRecord, h]

theorem beBytes_length (n v : Nat) : (beBytes n v).length = n := by
  induction n with
  | zero => rfl
  | succ n ih => simp [beBytes, ih]

theorem encValue_length {r : CmdRow} {d : BitVec 32} {v : List Byte} (h : encValue r d = some v) : v.length = r.len.toNat := by
  unfold encValue at h
  split at h
  · rename_i hz; rw [hz]; simp at h; simp [h]
  · split at h
    · simp at h
    · simp only at h
      split at h
      · simp only [Option.some.injEq] at h; rw [← h, beBytes_length]
      · simp at h

theorem ValueBytes.length {s : State} {r : CmdRow} {d : BitVec 32} {v : List Byte} {u : State} (h : ValueBytes s r d v u) :
    v.length = r.len.toNat := by
  rcases h with ⟨h, _⟩ | ⟨_, rfl, _⟩
  · exact encValue_length h
  · simp [State.valueBytes]

/-- The record bytes are those of a record with the command flag set (30_encoding.md R67, 41_frame_encoder.md R87). -/
theorem commandBytes_eq {r : CmdRow} {v : List Byte} (h : v.length = r.len.toNat) : commandBytes r v = recordHeader r ++ v := by
  simp only [commandBytes, WireRecord.bytes, recordHeader, h]
  have h1 : BitVec.ofBool true ++ r.pid = (0x80#8 ||| r.pid.setWidth 8 : BitVec 8) := by
    apply BitVec.eq_of_toNat_eq
    have := r.pid.isLt
    rw [BitVec.toNat_append, BitVec.toNat_or]
    simp only [BitVec.toNat_setWidth, BitVec.ofBool_true, BitVec.toNat_ofNat]
    rw [Nat.mod_eq_of_lt (by omega : r.pid.toNat < 2 ^ 8)]
    rfl
  have h2 : intTypeCode r.type ++ BitVec.ofNat 4 r.len.toNat
      = ((intTypeCode r.type).setWidth 8 <<< 4 ||| r.len.setWidth 8 : BitVec 8) := by
    simp only [BitVec.ofNat_toNat, BitVec.setWidth_eq]
    generalize intTypeCode r.type = a
    generalize r.len = b
    revert a b; decide
  rw [h1, h2]

theorem cryptFrom_length (bs : List Byte) : ∀ r, (cryptFrom r bs).length = bs.length := by
  induction bs with
  | nil => intro r; rfl
  | cons b bs ih => intro r; simp [cryptFrom, ih]

@[simp] theorem crypt_length (key : Byte) (pip : BitVec 16) (bs : List Byte) : (crypt key pip bs).length = bs.length :=
  cryptFrom_length bs _

theorem framePlain_length (d : BitVec 24) (rs : List Byte) : (framePlain d rs).length = rs.length + 4 := by
  simp [framePlain, be24]

/-- A frame is 11 bytes longer than its records (41_frame_encoder.md R88). -/
theorem frameBytes_length (key mfr prod : Byte) (d : BitVec 24) (rs : List Byte) (pip : BitVec 16) :
    (frameBytes key mfr prod d rs pip).length = rs.length + 11 := by
  simp [frameBytes, framePlain_length, be16]

/-- What `clearCmd` does to an entry with nothing outstanding (44_retry_sequencer.md R126). -/
theorem State.clearCmd_idle {s : State} {k : Nat} (h : ((s.dev k).hasCc && (s.dev k).cc.pending) = false) :
    s.clearCmd k = s := by
  simp [State.clearCmd, h]

/-- What `clearCmd` does to an entry with a command outstanding (44_retry_sequencer.md R126). -/
theorem State.clearCmd_out {s : State} {k : Nat} {e : Dev} (he : s.dev k = e) (h : (e.hasCc && e.cc.pending) = true) :
    s.clearCmd k =
      { s with devs := s.devs.set k (clearedDev e),
               cntActive := if e.cc.active then s.cntActive - 1 else s.cntActive,
               cntPrecached := if e.cc.active then s.cntPrecached else s.cntPrecached - 1 } := by
  subst he
  simp only [State.clearCmd, h, if_true]
  rfl

/-- What `attachCmd` does (44_retry_sequencer.md R127). -/
theorem State.attachCmd_eq {s : State} {k : Nat} {e : Dev} (he : s.dev k = e) (cmd : Byte) (d : BitVec 32) (n : Byte)
    (f : List Byte) :
    s.attachCmd k cmd d n f =
      { s with devs := s.devs.set k (attachedDev e cmd d n f),
               cntActive := if e.cc.pending then s.cntActive else if e.seen then s.cntActive + 1 else s.cntActive,
               cntPrecached := if e.cc.pending then s.cntPrecached
                 else if e.seen then s.cntPrecached else s.cntPrecached + 1 } := by
  subst he; rfl

/-- What `sendCached` does with nothing outstanding (44_retry_sequencer.md R129). -/
theorem State.sendCached_idle {s : State} {k : Nat} (h : ((s.dev k).hasCc && (s.dev k).cc.pending) = false) :
    s.sendCached k = (false, s) := by
  simp [State.sendCached, h]

/-- What `sendCached` does with a command that has no send left (44_retry_sequencer.md R129). -/
theorem State.sendCached_spent {s : State} {k : Nat} {e : Dev} (he : s.dev k = e) (h : (e.hasCc && e.cc.pending) = true)
    (hz : e.cc.retries = 0) : s.sendCached k = (false, s.clearCmd k) := by
  subst he; simp [State.sendCached, h, hz]

/-- What `sendCached` does with a command that has sends left (44_retry_sequencer.md R129): the frame goes out once, and the last
send clears the command. -/
theorem State.sendCached_sends {s : State} {k : Nat} {e : Dev} (he : s.devs[k]? = some e)
    (h : (e.hasCc && e.cc.pending) = true) (hz : e.cc.retries ≠ 0) :
    s.sendCached k =
      (true,
        { s with
          devs := s.devs.set k (if e.cc.retries = 1 then clearedDev (sentDev e) else sentDev e),
          events := s.events
            ++ [.transmit (Memory.readRange e.cc.frame 0 e.cc.flen.toNat) e.cc.flen.toNat s.cfg.txRepeat],
          cntActive := (if e.cc.active then s.cntActive else s.cntActive + 1) - (if e.cc.retries = 1 then 1 else 0),
          cntPrecached := if e.cc.active then s.cntPrecached else s.cntPrecached - 1 }) := by
  have hd := State.dev_of he
  have hk : k < s.devs.length := (List.getElem?_eq_some_iff.mp he).1
  have h1 : (s.sendOnce k).dev k = sentDev e := by
    simp [State.sendOnce, State.dev, List.getD_eq_getElem?_getD, hk]
    simp [(List.getElem?_eq_some_iff.mp he).2]
  have hb : e.cc.retries - 1 = 0 ↔ e.cc.retries = 1 := by
    constructor
    · intro q; have := congrArg (· + 1) q; simpa using this
    · rintro q; rw [q]; rfl
  simp only [State.sendCached, hd, h, if_true, if_neg hz, h1]
  by_cases hr : e.cc.retries = 1
  · have h2 : (sentDev e).cc.retries = 0 := by simp [sentDev, hr]
    rw [if_pos h2, State.clearCmd_out h1 (by simpa [sentDev] using h)]
    simp [State.sendOnce, hd, hr, sentDev]
  · have h2 : ¬ (sentDev e).cc.retries = 0 := fun q => hr (hb.mp q)
    rw [if_neg h2, if_neg hr, if_neg hr]
    simp [State.sendOnce, hd]

end Sys2Proof.Machine
end

