-- ==== Sys2Proof/Laws/Ring.lean ====
section
/-! SUPPORT. What the ring buffer's functions do to the queue of unread slots, and what a drain does. -/

namespace Sys2Proof.Machine

/-- The ring invariant, unfolded (10_state.md R24). -/
theorem Ring.ok_iff {r : Ring} : r.ok = true ↔ r.slots.length = 5 ∧ r.head.val = (r.tail.val + r.count.val) % 5 ∧ ∀ e ∈ r.slots, e.ok = true := by
  simp [Ring.ok, and_assoc]

/-- A slot index wraps at 5. -/
theorem fin5_succ (a : Fin 5) : (a + 1).val = (a.val + 1) % 5 := by revert a; decide

/-- A count below 5 goes up by one. -/
theorem fin6_succ (a : Fin 6) (h : a ≠ 5) : (a + 1).val = a.val + 1 := by revert a; decide

/-- A count above 0 goes down by one. -/
theorem fin6_pred (a : Fin 6) (h : a ≠ 0) : (a - 1).val = a.val - 1 := by revert a; decide

/-- A slot of at most 67 bytes is in shape. -/
theorem slotOf_ok {d : List Byte} {ts} (h : d.length ≤ 67) : (slotOf d ts).ok = true := by
  simp [Slot.ok, slotOf, frameMax]
  rw [Nat.mod_eq_of_lt (by omega)]
  exact ⟨h, Memory.wf_ofBytes (le_refl _)⟩

/-- RB_COUNT is the number of unread slots (10_state.md R24). -/
theorem Ring.unread_length (r : Ring) : r.unread.length = r.count.val := by simp [Ring.unread]

/-- What a push does to the queue of unread slots (43_ring_buffer.md R110). -/
theorem Ring.push_spec {r : Ring} (h : r.ok = true) {d : List Byte} {ts} (hd : d.length ≤ 67) :
   (r.push d ts).ok = true ∧ (r.push d ts).unread = (if r.count = 5 then r.unread.tail else r.unread) ++ [slotOf d ts] := by
  obtain ⟨h1, h2, h3⟩ := Ring.ok_iff.mp h
  have hc := r.count.isLt
  have ht := r.tail.isLt
  constructor
  · rw [Ring.ok_iff]
    refine ⟨by simp [Ring.push, h1], ?_, ?_⟩
    · by_cases q : r.count = 5
      · simp only [Ring.push, q, if_true, fin5_succ, h2]
        have : r.count.val = 5 := by simp [q]
        simp
      · simp only [Ring.push, q, if_false, fin5_succ, h2, fin6_succ _ q]
        omega
    · intro e he
      rcases List.mem_or_eq_of_mem_set he with he | rfl
      · exact h3 e he
      · exact slotOf_ok hd
  · apply List.ext_getElem?
    intro i
    by_cases q : r.count = 5
    · have q' : r.count.val = 5 := by simp [q]
      simp only [q, if_true]
      have hl : r.unread.length = 5 := by rw [Ring.unread_length, q']
      by_cases hi : i < 4
      · rw [List.getElem?_append_left (by simp [hl]; omega), List.getElem?_tail]
        simp only [Ring.unread, Ring.push, q, if_true]
        simp only [List.getElem?_map, fin5_succ]
        rw [List.getElem?_range (by simp; omega), List.getElem?_range (by simp; omega)]
        simp only [Option.map_some]
        rw [List.getD_eq_getElem?_getD, List.getD_eq_getElem?_getD, List.getElem?_set_ne (by omega)]
        rw [show ((r.tail.val + 1) % 5 + i) % 5 = (r.tail.val + (i + 1)) % 5 by omega]
      · by_cases hi' : i = 4
        · subst hi'
          rw [List.getElem?_append_right (by simp [hl])]
          simp only [Ring.unread, Ring.push, q, if_true, List.getElem?_map, fin5_succ]
          rw [List.getElem?_range (by simp)]
          have : ((r.tail.val + 1) % 5 + 4) % 5 = r.head.val := by omega
          have hh : r.head.val < 5 := r.head.isLt
          simp only [Option.map_some, this]
          simp [h1, slotOf]
        · rw [List.getElem?_eq_none, List.getElem?_eq_none]
          · simp [hl]; omega
          · rw [Ring.unread_length]; simp [Ring.push, q]; omega
    · have q' : r.count.val ≠ 5 := fun z => q (Fin.ext (by simpa using z))
      simp only [q, if_false]
      by_cases hi : i < r.count.val
      · rw [List.getElem?_append_left (by rw [Ring.unread_length]; exact hi)]
        simp only [Ring.unread, Ring.push, q, if_false]
        simp only [List.getElem?_map, fin6_succ _ q]
        rw [List.getElem?_range (by omega), List.getElem?_range (by omega)]
        simp only [Option.map_some]
        rw [List.getD_eq_getElem?_getD, List.getD_eq_getElem?_getD, List.getElem?_set_ne (by omega)]
      · by_cases hi' : i = r.count.val
        · subst hi'
          rw [List.getElem?_append_right (by rw [Ring.unread_length])]
          simp only [Ring.unread, Ring.push, q, if_false, List.getElem?_map, fin6_succ _ q]
          rw [List.getElem?_range (by omega)]
          simp [← h2, h1, slotOf]
        · rw [List.getElem?_eq_none, List.getElem?_eq_none]
          · simp [Ring.unread_length]; omega
          · rw [Ring.unread_length]; simp only [Ring.push, q, if_false, fin6_succ _ q]; omega

/-- The unread slot at an index. -/
theorem Ring.unread_get (r : Ring) (i : Nat) : r.unread[i]? = if i < r.count.val then some (r.slots.getD ((r.tail.val + i) % 5) Slot.reset) else none := by
  simp only [Ring.unread, List.getElem?_map]
  split
  · rw [List.getElem?_range (by assumption)]; rfl
  · rw [List.getElem?_eq_none (by simp; omega)]; rfl

/-- Every unread slot is in shape. -/
theorem Ring.unread_ok {r : Ring} (h : r.ok = true) {e} (he : e ∈ r.unread) : e.ok = true := by
  obtain ⟨h1, h2, h3⟩ := Ring.ok_iff.mp h
  simp only [Ring.unread, List.mem_map, List.mem_range] at he
  obtain ⟨i, hi, rfl⟩ := he
  rw [List.getD_eq_getElem?_getD, List.getElem?_eq_getElem (by omega)]
  exact h3 _ (List.getElem_mem _)

/-- Taking all 67 bytes of a slot makes a buffer that reads as the slot (43_ring_buffer.md R115). -/
theorem takeSlot_spec {m : Memory} (hm : Memory.wf 67 m = true) {e : Slot} (he : e.ok = true) :
   Memory.wf 67 (Memory.writeRange m 0 (Memory.readRange e.bytes 0 67)) = true ∧ ∀ a, Memory.read (Memory.writeRange m 0 (Memory.readRange e.bytes 0 67)) a = Memory.read e.bytes a := by
  refine ⟨Memory.wf_writeRange _ (by simp) hm, ?_⟩
  intro a
  rw [Memory.read_writeRange (size := 67) _ (by simp) hm]
  unfold Slot.ok at he
  rw [Bool.and_eq_true] at he
  have h1 : e.len.toNat ≤ 67 := of_decide_eq_true he.1
  by_cases q : a < 67
  · rw [if_pos (by simp; omega)]; rw [Nat.sub_zero, Memory.readRange_getD _ _ _ _ q]; simp
  · rw [if_neg (by simp; omega), Memory.read_ge hm (by omega), Memory.read_ge he.2 (by omega)]

/-- What a pop does to a queue that is not empty (43_ring_buffer.md R111). -/
theorem Ring.pop_spec {r : Ring} (h : r.ok = true) {e rest} (hu : r.unread = e :: rest) :
   ∃ r', r.pop = some (e, r') ∧ r'.ok = true ∧ r'.unread = rest ∧ r'.slots = r.slots ∧ r'.head = r.head := by
  obtain ⟨h1, h2, h3⟩ := Ring.ok_iff.mp h
  have hl := Ring.unread_length r
  rw [hu] at hl
  simp at hl
  have q : r.count ≠ 0 := by intro z; simp [z] at hl
  have e0 := Ring.unread_get r 0
  rw [hu, if_pos (by omega)] at e0
  simp at e0
  have ht := r.tail.isLt
  refine ⟨{ r with tail := r.tail + 1, count := r.count - 1 }, ?_, ?_, ?_, rfl, rfl⟩
  · simp only [Ring.pop, if_neg q, Ring.slot]
    rw [Nat.mod_eq_of_lt (by omega)] at e0
    rw [e0]; simp
  · rw [Ring.ok_iff]; refine ⟨h1, ?_, h3⟩
    simp only [fin5_succ, fin6_pred _ q, h2]; omega
  · apply List.ext_getElem?
    intro i
    have : rest[i]? = r.unread[i+1]? := by rw [hu]; simp
    rw [this, Ring.unread_get r]
    simp only [Ring.unread, List.getElem?_map, fin6_pred _ q, fin5_succ]
    by_cases hi : i + 1 < r.count.val
    · rw [if_pos hi, List.getElem?_range (by omega)]; simp only [Option.map_some]; congr 2; omega
    · rw [if_neg hi, List.getElem?_eq_none (by simp; omega)]; rfl

/-- An answer in its domain is read as it is. -/
theorem State.readAnswer_of {s : State} {f : List Byte} {qs} (h : s.env.readAnswers = .ok f :: qs) (hf : f.length ≤ 67) : s.readAnswer = .ok f := by
  simp [State.readAnswer, h, clipAnswer, frameMax, hf]

/-- A drain with frames waiting pushes them in order, with two port events each, and leaves RB_TAIL (43_ring_buffer.md R113). -/
theorem State.drainLoop_frames (fs : List (List Byte)) : ∀ (s : State) (n : Nat) (ws qs), s.ring.ok = true → (∀ f ∈ fs, f.length ≤ 67) → fs.length + s.ring.count.val ≤ 5 → fs.length ≤ n →
   s.env.waitAnswers = List.replicate fs.length true ++ ws → s.env.readAnswers = fs.map .ok ++ qs →
   ∃ r m, State.drainLoop n s = State.drainLoop (n - fs.length) { s with ring := r, events := s.events ++ fs.flatMap (fun f => [.hasFrameWaiting true, .readFrame 67 (.ok f)]), env := { s.env with waitAnswers := ws, readAnswers := qs, drawNo := m } } ∧ r.ok = true ∧ r.count.val = fs.length + s.ring.count.val ∧ r.unread = s.ring.unread ++ fs.map (fun f => slotOf f s.now) ∧ r.tail = s.ring.tail := by
  induction fs with
  | nil =>
    intro s n ws qs h _ _ _ hw hq
    refine ⟨s.ring, s.env.drawNo, ?_, h, by simp, by simp, rfl⟩
    simp at hw hq
    simp [← hw, ← hq]
  | cons f fs ih =>
    intro s n ws qs h hf hl hn hw hq
    simp at hl hn
    obtain ⟨n, rfl⟩ : ∃ m, n = m + 1 := ⟨n - 1, by omega⟩
    have q : s.ring.count ≠ 5 := by intro z; simp [z] at hl
    have hwa : s.waitAnswer = true := by simp [State.waitAnswer, hw, List.replicate_succ]
    have hra : s.afterWait.readAnswer = .ok f := State.readAnswer_of (s := s.afterWait) (by simpa using hq) (hf f (by simp))
    have hp := Ring.push_spec h (d := f) (ts := s.now) (hf f (by simp))
    have hcnt : (s.ring.push f s.now).count.val = s.ring.count.val + 1 := by simp [Ring.push, q, fin6_succ _ q]
    obtain ⟨r, m, h1, h2, h3, h4, h5⟩ := ih (s.afterWait.afterRead.setRing (s.ring.push f s.now)) n ws qs hp.1 (fun g hg => hf g (by simp [hg])) (by simp [hcnt]; omega) (by omega)
      (by simp [hw, List.replicate_succ]) (by simp [hq])
    refine ⟨r, m, ?_, h2, ?_, ?_, ?_⟩
    · simp only [State.drainLoop, if_neg q, hwa, if_true, hra]
      rw [h1]
      simp [hwa, hra]
    · rw [h3]; simp [hcnt]; omega
    · rw [h4]; simp [hp.2, q]
    · rw [h5]; simp [Ring.push, q]

end Sys2Proof.Machine
end

