-- ==== Sys2Proof/Laws/Frames.lean ====
section
/-! SUPPORT. What the longer shared operations can change: each lemma gives the state after as an update of the state before. -/

namespace Sys2Proof.Machine

/-- The issuing bank put back where it stands changes nothing. -/
theorem State.setCtx_self {s : State} (h : s.cur < s.ctxs.length) : s.setCtx s.ctx = s := by
  obtain ⟨h1, h2⟩ := List.getElem?_eq_some_iff.mp (State.ctx_get h)
  have : s.ctxs.set s.cur s.ctx = s.ctxs := by rw [← h2]; simp
  cases s; simp_all [State.setCtx]

/-- An entry put back where it stands changes nothing. -/
theorem State.setDev_self {s : State} {k : Nat} {e : Dev} (h : s.devs[k]? = some e) : s.devs.set k e = s.devs := by
  obtain ⟨_, rfl⟩ := List.getElem?_eq_some_iff.mp h
  simp

/-- A slot that a frame of the transceiver fills is in shape. -/
theorem State.readAnswer_length {s : State} {d : List Byte} (h : s.readAnswer = .ok d) : d.length ≤ 67 := by
  unfold State.readAnswer clipAnswer at h
  split at h
  · cases h
  · cases h; simp [frameMax]

/-- What a drain can do (43_ring_buffer.md R113): it changes the ring, the port log and the answers that wait, and keeps the ring in
shape. -/
theorem State.drainLoop_frame (n : Nat) : ∀ s : State,
    ∃ r es q, State.drainLoop n s = { s with ring := r, events := s.events ++ es, env := q }
      ∧ (s.ring.ok = true → r.ok = true) := by
  induction n with
  | zero => intro s; exact ⟨s.ring, [], s.env, by simp [State.drainLoop], id⟩
  | succ n ih =>
    intro s
    simp only [State.drainLoop]
    split
    · exact ⟨s.ring, [], s.env, by simp, id⟩
    · split
      · split
        · exact ⟨s.ring, [.hasFrameWaiting s.waitAnswer, .readFrame frameMax s.afterWait.readAnswer], s.afterWait.afterRead.env,
            by simp [State.afterRead, State.afterWait], id⟩
        · rename_i d hd
          obtain ⟨r, es, q, h1, h2⟩ := ih (s.afterWait.afterRead.setRing (s.ring.push d s.now))
          refine ⟨r, [.hasFrameWaiting s.waitAnswer, .readFrame frameMax s.afterWait.readAnswer] ++ es, q, ?_,
            fun h => h2 (Ring.push_spec h (State.readAnswer_length hd)).1⟩
          rw [h1]
          simp [State.setRing, State.afterRead, State.afterWait]
      · exact ⟨s.ring, [.hasFrameWaiting s.waitAnswer], s.afterWait.env, by simp [State.afterWait], id⟩

/-- What a drain can do (43_ring_buffer.md R113). -/
theorem State.drain_frame (s : State) :
    ∃ r es q, s.drain = { s with ring := r, events := s.events ++ es, env := q } ∧ (s.ring.ok = true → r.ok = true) :=
  State.drainLoop_frame 5 s

/-- What `clearCmd` can do (44_retry_sequencer.md R126): it changes one entry and the counters. -/
theorem State.clearCmd_frame (s : State) (k : Nat) :
    ∃ e a p, s.clearCmd k = { s with devs := s.devs.set k e, cntActive := a, cntPrecached := p }
      ∧ (e = s.dev k ∨ e = clearedDev (s.dev k)) := by
  cases h : ((s.dev k).hasCc && (s.dev k).cc.pending) with
  | true => exact ⟨_, _, _, State.clearCmd_out rfl h, .inr rfl⟩
  | false =>
    refine ⟨s.dev k, s.cntActive, s.cntPrecached, ?_, .inl rfl⟩
    rw [State.clearCmd_idle h]
    by_cases hk : k < s.devs.length
    · rw [State.setDev_self (by rw [State.dev, List.getD_eq_getElem?_getD, List.getElem?_eq_getElem hk]; rfl)]
    · rw [List.set_eq_of_length_le (by omega)]

/-- What `encRecord` can do to the state (41_frame_encoder.md R87): one draw, or nothing. -/
theorem State.encRecord_frame {s : State} {cmd : Byte} {d : BitVec 32} {bs : List Byte} {t : State}
    (h : s.encRecord cmd d = some (bs, t)) : ∃ q, t = { s with env := q } := by
  rcases State.encRecord_cases s cmd d with ⟨_, h1⟩ | ⟨r, v, u, _, hv, h1⟩
  · rw [h1] at h; cases h
  · rw [h1] at h
    cases h
    rcases hv with ⟨_, hu⟩ | ⟨_, _, hu⟩
    · exact ⟨s.env, hu⟩
    · exact ⟨_, hu⟩

/-- What `sendCached` can do (44_retry_sequencer.md R129): it changes one entry and the counters, and logs at most one event. -/
theorem State.sendCached_frame (s : State) (k : Nat) :
    ∃ ds a p es, (s.sendCached k).2 = { s with devs := ds, cntActive := a, cntPrecached := p, events := s.events ++ es }
      ∧ ds.length = s.devs.length ∧ ∀ j, j ≠ k → ds[j]? = s.devs[j]? := by
  by_cases hk : k < s.devs.length
  · have he : s.devs[k]? = some (s.dev k) := by
      rw [State.dev, List.getD_eq_getElem?_getD, List.getElem?_eq_getElem hk]; rfl
    cases h : ((s.dev k).hasCc && (s.dev k).cc.pending) with
    | false =>
      rw [State.sendCached_idle h]
      exact ⟨s.devs, s.cntActive, s.cntPrecached, [], by simp, rfl, fun _ _ => rfl⟩
    | true =>
      by_cases hz : (s.dev k).cc.retries = 0
      · rw [State.sendCached_spent rfl h hz, State.clearCmd_out rfl h]
        exact ⟨s.devs.set k (clearedDev (s.dev k)), _, _, [], by rw [List.append_nil], by simp,
          fun j hj => by simp [Ne.symm hj]⟩
      · rw [State.sendCached_sends he h hz]
        exact ⟨_, _, _, _, rfl, by simp, fun j hj => by simp [Ne.symm hj]⟩
  · have hb := State.dev_of_ge (s := s) (k := k) (by omega)
    rw [State.sendCached_idle (by rw [hb]; rfl)]
    exact ⟨s.devs, s.cntActive, s.cntPrecached, [], by simp, rfl, fun _ _ => rfl⟩

/-- `thermostatAck` as one update (44_retry_sequencer.md R133). -/
theorem State.thermostatAck_eq {s : State} {k : Nat} {e : Dev} (he : s.devs[k]? = some e) (hlt : s.cur < s.ctxs.length)
    (other : Bool) (ts : BitVec 64) (hcc : e.hasCc = true) :
    s.thermostatAck k other ts =
      ({ s with
          devs := s.devs.set k
            { e with
              th := { mode := if (other && e.cc.pending) && e.cc.cmd == s.cfg.cmdThermMode then e.cc.data else e.th.mode
                      modeKnown := ((other && e.cc.pending) && e.cc.cmd == s.cfg.cmdThermMode) || e.th.modeKnown
                      lastTel := if other then ts else e.th.lastTel }
              cc := (if other && e.cc.pending then clearedDev e else e).cc },
          cntActive := if (other && e.cc.pending) && e.cc.active then s.cntActive - 1 else s.cntActive,
          cntPrecached := if (other && e.cc.pending) && !e.cc.active then s.cntPrecached - 1 else s.cntPrecached }
        : State).setCtx
        { s.ctx with post := if other && e.cc.pending then acknowledgedPost s.cfg e s.ctx.post else s.ctx.post } := by
  have hdv := State.dev_of he
  have hk := (List.getElem?_eq_some_iff.mp he).1
  have hcs : s.ctxs.set s.cur s.ctx = s.ctxs := congrArg State.ctxs (State.setCtx_self hlt)
  cases ho : other with
  | false => simp [State.thermostatAck, State.setCtx, State.setDev_self he, hcs]
  | true =>
    cases hp : e.cc.pending with
    | false => simp [State.thermostatAck, State.setCtx, hcs, hdv, hp, State.setDev, acknowledgedTh]
    | true =>
      have hd2 : (s.setDev k { e with th := acknowledgedTh s.cfg e ts }).dev k = { e with th := acknowledgedTh s.cfg e ts } :=
        State.dev_of (by simp [hk])
      have hcp : (e.hasCc && e.cc.pending) = true := by simp [hcc, hp]
      simp only [State.thermostatAck, if_true, hdv, hcp]
      rw [State.clearCmd_out hd2 (by simp [hcc, hp])]
      cases hac : e.cc.active <;> cases hq : (e.cc.cmd == s.cfg.cmdThermMode) <;>
        simp [State.setPost, State.setCtx, hp, hcc, State.setDev, clearedDev, hac, acknowledgedTh, hq, State.ctx, hlt]

/-- `t` is `s` after a part of post-processing of entry `k`: it changes one entry, the counters, the draws, and the post registers
of the issuing bank. -/
def State.PostStep (s : State) (k : Nat) (t : State) : Prop :=
  ∃ ds a p q po,
    t = ({ s with devs := ds, cntActive := a, cntPrecached := p, env := q } : State).setCtx { s.ctx with post := po }
      ∧ ds.length = s.devs.length ∧ ∀ j, j ≠ k → ds[j]? = s.devs[j]?

theorem State.PostStep.refl {s : State} (hlt : s.cur < s.ctxs.length) (k : Nat) : s.PostStep k s :=
  ⟨s.devs, s.cntActive, s.cntPrecached, s.env, s.ctx.post, (State.setCtx_self hlt).symm, rfl, fun _ _ => rfl⟩

theorem State.PostStep.lt {s t : State} {k : Nat} (h : s.PostStep k t) (hlt : s.cur < s.ctxs.length) :
    t.cur < t.ctxs.length := by
  obtain ⟨_, _, _, _, _, rfl, _⟩ := h; simpa using hlt

theorem State.PostStep.trans {s t u : State} {k : Nat} (hlt : s.cur < s.ctxs.length) (h : s.PostStep k t)
    (h' : t.PostStep k u) : s.PostStep k u := by
  obtain ⟨ds, a, p, q, po, rfl, h1, h2⟩ := h
  obtain ⟨ds', a', p', q', po', rfl, h1', h2'⟩ := h'
  refine ⟨ds', a', p', q', po', ?_, h1'.trans h1, fun j hj => (h2' j hj).trans (h2 j hj)⟩
  simp [State.setCtx, State.ctx, hlt]

theorem State.PostStep.post (s : State) (k : Nat) (po : PostReport) :
    s.PostStep k (s.setPost po) :=
  ⟨s.devs, s.cntActive, s.cntPrecached, s.env, po, rfl, rfl, fun _ _ => rfl⟩

/-- An update of entry `k`, the counters and the draws is a part of post-processing. -/
theorem State.PostStep.entry {s : State} (hlt : s.cur < s.ctxs.length) (k : Nat) (e : Dev) (a p : BitVec 16) (q : Env) :
    s.PostStep k { s with devs := s.devs.set k e, cntActive := a, cntPrecached := p, env := q } := by
  refine ⟨s.devs.set k e, a, p, q, s.ctx.post, ?_, by simp, fun j hj => by simp [Ne.symm hj]⟩
  exact (State.setCtx_self (s := { s with devs := s.devs.set k e, cntActive := a, cntPrecached := p, env := q }) hlt).symm

theorem State.PostStep.clear {s : State} (hlt : s.cur < s.ctxs.length) (k : Nat) : s.PostStep k (s.clearCmd k) := by
  obtain ⟨e, a, p, h, _⟩ := s.clearCmd_frame k
  rw [h]
  exact State.PostStep.entry hlt k e a p s.env

theorem State.PostStep.valve {s : State} (hlt : s.cur < s.ctxs.length) (k : Nat) (recs : List DecRec) :
    s.PostStep k (s.valveAck k recs) := by
  unfold State.valveAck
  simp only
  split
  · have h := State.PostStep.clear hlt k
    exact h.trans hlt (State.PostStep.post _ k _)
  · exact State.PostStep.refl hlt k

theorem State.PostStep.thermostat {s : State} (hlt : s.cur < s.ctxs.length) (k : Nat) (other : Bool) (ts : BitVec 64) :
    s.PostStep k (s.thermostatAck k other ts) := by
  unfold State.thermostatAck
  simp only
  split
  · have h0 : s.PostStep k (s.setDev k { s.dev k with th := acknowledgedTh s.cfg (s.dev k) ts }) :=
      State.PostStep.entry hlt k _ s.cntActive s.cntPrecached s.env
    split
    · have h1 := h0.trans hlt (State.PostStep.clear (h0.lt hlt) k)
      exact h1.trans hlt (State.PostStep.post _ k _)
    · exact h0
  · exact State.PostStep.refl hlt k

theorem State.PostStep.auto {s : State} (hlt : s.cur < s.ctxs.length) (k : Nat) (wake : Bool) (ts : BitVec 64) :
    s.PostStep k (s.autoTelemetry k wake ts) := by
  unfold State.autoTelemetry
  simp only
  split
  · split
    · exact State.PostStep.refl hlt k
    · rename_i r s1 hr
      obtain ⟨q, rfl⟩ := State.encRecord_frame hr
      have h1 : s.PostStep k ((State.afterNonce { s with env := q }).attachCmd k s.cfg.cmdThermMode (s.dev k).th.mode
          s.cfg.autoRetries (frameBytes s.cfg.cryptKey (s.dev k).mfr (s.dev k).prod (s.dev k).devid r
            (State.nonce { s with env := q }))) := State.PostStep.entry hlt k _ _ _ _
      exact h1.trans hlt (State.PostStep.post _ k _)
  · exact State.PostStep.refl hlt k

/-- What `postProcess` can do (44_retry_sequencer.md R132 to R135): it changes one entry, the counters, the draws, and the post and
device registers of the issuing bank. -/
theorem State.postProcess_frame {s : State} (hlt : s.cur < s.ctxs.length) (k : Nat) (recs : List DecRec) (ts : BitVec 64) :
    ∃ t, s.PostStep k t ∧ s.postProcess k recs ts = t.devReport k := by
  have h0 := State.PostStep.post s k { PostReport.reset with hasWake := hasPid recs s.cfg.paramWakeup }
  unfold State.postProcess
  simp only
  refine ⟨_, ?_, rfl⟩
  split
  · have h1 := h0.trans hlt (State.PostStep.thermostat (h0.lt hlt) k (hasOther s.cfg recs) ts)
    exact h1.trans hlt (State.PostStep.auto (h1.lt hlt) k _ ts)
  · exact h0.trans hlt (State.PostStep.valve (h0.lt hlt) k recs)
  · exact h0

end Sys2Proof.Machine
end

