-- ==== Sys2Proof/Laws/PerInstr.lean ====
section
/-! SUPPORT. What holds of every operation's encoding, one lemma for each constructor (30_encoding.md R54, R56, R61). -/

namespace Sys2Proof.Laws.EncodingReserved

/-- The operation's word has its code in `OP` and 0 in `RSV`, decodes to the operation, and is a row of the opcode table. -/
def Statement (i : Instr) : Prop :=
  i.wf = true ∧ opField (encode i) = (opCode i).toNat ∧ rsvField (encode i) = 0 ∧ decodeOp (opCode i).toNat = some i
    ∧ decodeTableWord 32 (opCode i).toNat = some i

theorem nop : Statement .nop := ⟨by decide, by decide, by decide, by decide, by decide⟩
theorem crc16 : Statement .crc16 := ⟨by decide, by decide, by decide, by decide, by decide⟩
theorem cipher : Statement .cipher := ⟨by decide, by decide, by decide, by decide, by decide⟩
theorem encRecord : Statement .encRecord := ⟨by decide, by decide, by decide, by decide, by decide⟩
theorem buildFrame : Statement .buildFrame := ⟨by decide, by decide, by decide, by decide, by decide⟩
theorem decodeFrame : Statement .decodeFrame := ⟨by decide, by decide, by decide, by decide, by decide⟩
theorem txFrame : Statement .txFrame := ⟨by decide, by decide, by decide, by decide, by decide⟩
theorem rbPush : Statement .rbPush := ⟨by decide, by decide, by decide, by decide, by decide⟩
theorem rbPop : Statement .rbPop := ⟨by decide, by decide, by decide, by decide, by decide⟩
theorem rbPeek : Statement .rbPeek := ⟨by decide, by decide, by decide, by decide, by decide⟩
theorem rbDrain : Statement .rbDrain := ⟨by decide, by decide, by decide, by decide, by decide⟩
theorem devCreate : Statement .devCreate := ⟨by decide, by decide, by decide, by decide, by decide⟩
theorem devQuery : Statement .devQuery := ⟨by decide, by decide, by decide, by decide, by decide⟩
theorem devList : Statement .devList := ⟨by decide, by decide, by decide, by decide, by decide⟩
theorem cacheCmd : Statement .cacheCmd := ⟨by decide, by decide, by decide, by decide, by decide⟩
theorem trySend : Statement .trySend := ⟨by decide, by decide, by decide, by decide, by decide⟩
theorem postProcess : Statement .postProcess := ⟨by decide, by decide, by decide, by decide, by decide⟩
theorem rxPoll : Statement .rxPoll := ⟨by decide, by decide, by decide, by decide, by decide⟩
theorem gateAcquire : Statement .gateAcquire := ⟨by decide, by decide, by decide, by decide, by decide⟩
theorem gateRelease : Statement .gateRelease := ⟨by decide, by decide, by decide, by decide, by decide⟩
theorem shutdown : Statement .shutdown := ⟨by decide, by decide, by decide, by decide, by decide⟩

end Sys2Proof.Laws.EncodingReserved
end

