-- ==== Sys2Proof/Tests/Slice0.lean ====
section
/-! SUPPORT. The model's own tests. Expected values come from spec/: 95_test_vectors.md (named V-…), or the rule that a test names.
The configuration is EX of 95_test_vectors.md section 1. After the tests stand the witnesses: for each statement of
Certificates/Slice0/Obligations.lean that has hypotheses, a state and operands that meet them, clause by clause. -/

open Sys2Proof Sys2Proof.Machine

namespace Sys2Proof.Tests

set_option Elab.async false

/-! ## The example configuration -/

/-- EX as numbers. -/
def exRaw : RawConfig :=
  { cryptKey := 242, mfrDefault := 4, devMax := 4, agents := 2,
    cmdTable := [⟨0xA3, 0x23, 0, 0⟩, ⟨0xA5, 0x25, 0, 1⟩, ⟨0xA6, 0x26, 0, 0⟩, ⟨0xAA, 0x2A, 0, 1⟩, ⟨0xC1, 0x41, 1, 2⟩,
      ⟨0xC2, 0x42, 2, 2⟩, ⟨0xE2, 0x62, 0, 0⟩, ⟨0xF4, 0x74, 9, 2⟩],
    productTable := [⟨1, .always, .none, false⟩, ⟨2, .none, .none, false⟩, ⟨3, .smallWindow, .valve, false⟩,
      ⟨0x12, .smallWindow, .thermostat, true⟩],
    ackTable := [(0xA6, [0x26]), (0xE2, [0x76])], noEchoCmds := [0xAA], paramWakeup := 0x0A, cmdThermMode := 0xAA,
    modeGateway := 0x40400000, telemetryPeriod := 300, autoRetries := 2, txRepeat := 1, sleepShort := 1, sleepLong := 5,
    timeUnit := ⟨1, 0⟩, defaultMode := ⟨0, 0⟩, busMap := [] }

/-- EX as the model holds it. -/
def ex : Config :=
  { cryptKey := 242, mfrDefault := 4, devMaxLess1 := 3, agentsLess1 := 1,
    cmdTable := [⟨0xA2, 0x22, .uint, 0⟩, ⟨0xA4, 0x24, .uint, 1⟩, ⟨0xA5, 0x25, .uint, 0⟩, ⟨0xA9, 0x29, .uint, 1⟩,
      ⟨0xC0, 0x40, .uintBP4, 2⟩, ⟨0xC1, 0x41, .uintBP8, 2⟩, ⟨0xE1, 0x61, .uint, 0⟩, ⟨0xF3, 0x73, .sintBP8, 2⟩],
    productTable := [⟨1, .plain .always, false⟩, ⟨2, .plain .none, false⟩, ⟨3, .valve, false⟩, ⟨0x12, .thermostat, true⟩],
    ackTable := [(0xA6, [0x26]), (0xE2, [0x76])], noEchoCmds := [0xAA], paramWakeupLess1 := 9, cmdThermModeLess1 := 0xA9,
    modeGateway := 0x40400000, telemetryPeriod := 300, autoRetriesLess1 := 1, txRepeat := 1, sleepShortLess1 := 0,
    sleepLongLess1 := 4, timeUnit := ⟨1, 0⟩, defaultMode := ⟨0, 0⟩, busMap := [] }

/-- The reason a configuration is refused, none if it is accepted. -/
def refusedBy (r : RawConfig) : Option ConfigError :=
  match r.check with
  | .ok _ => none
  | .error e => some e

/-! ## WellFormed: each check refuses an ill-formed configuration (00_scope.md R7, R8) -/

theorem test_wf_accepts : exRaw.check = .ok ex := by rfl
theorem test_wf_accepts_bounds :
    refusedBy { exRaw with devMax := 65535, agents := 255, paramWakeup := 127, cmdThermMode := 255, autoRetries := 255,
                           cmdTable := [⟨255, 127, 0xB, 15⟩, ⟨1, 1, 6, 0⟩] } = none := by decide +kernel
theorem test_wf_devMax : refusedBy { exRaw with devMax := 0 } = some .devMax
    ∧ refusedBy { exRaw with devMax := 65536 } = some .devMax := by decide +kernel
theorem test_wf_agents : refusedBy { exRaw with agents := 0 } = some .agents
    ∧ refusedBy { exRaw with agents := 256 } = some .agents := by decide +kernel
theorem test_wf_commandId : refusedBy { exRaw with cmdTable := [⟨0, 1, 0, 0⟩] } = some .commandId
    ∧ refusedBy { exRaw with cmdTable := [⟨256, 1, 0, 0⟩] } = some .commandId := by decide +kernel
theorem test_wf_paramId : refusedBy { exRaw with cmdTable := [⟨1, 0, 0, 0⟩] } = some .paramId
    ∧ refusedBy { exRaw with cmdTable := [⟨1, 128, 0, 0⟩] } = some .paramId := by decide +kernel
theorem test_wf_commandType : refusedBy { exRaw with cmdTable := [⟨1, 1, 7, 0⟩] } = some .commandType
    ∧ refusedBy { exRaw with cmdTable := [⟨1, 1, 0xC, 0⟩] } = some .commandType := by decide +kernel
theorem test_wf_commandLen : refusedBy { exRaw with cmdTable := [⟨1, 1, 0, 16⟩] } = some .commandLen := by decide +kernel
theorem test_wf_productClass : refusedBy { exRaw with productTable := [⟨1, .always, .valve, false⟩] } = some .productClass
    ∧ refusedBy { exRaw with productTable := [⟨1, .none, .thermostat, false⟩] } = some .productClass := by decide +kernel
theorem test_wf_paramWakeup : refusedBy { exRaw with paramWakeup := 0 } = some .paramWakeup
    ∧ refusedBy { exRaw with paramWakeup := 128 } = some .paramWakeup := by decide +kernel
theorem test_wf_cmdThermMode : refusedBy { exRaw with cmdThermMode := 0 } = some .cmdThermMode := by decide +kernel
theorem test_wf_autoRetries : refusedBy { exRaw with autoRetries := 0 } = some .autoRetries := by decide +kernel
theorem test_wf_sleep : refusedBy { exRaw with sleepShort := 0 } = some .sleep
    ∧ refusedBy { exRaw with sleepLong := 0 } = some .sleep := by decide +kernel
theorem test_boot_refuses : boot { exRaw with agents := 0 } = .refused (.badConfig .agents) := by rfl

/-! ## Decoding: command words written out from 30_encoding.md R54 and R56 -/

theorem test_decode_nop : decode 0b00000000000000000000000000000000#32 = .ok .nop := by rfl
theorem test_decode_crc16 : decode 0b00000000000000000000000000000001#32 = .ok .crc16 := by rfl
theorem test_decode_cipher : decode 0b00000000000000000000000000000010#32 = .ok .cipher := by rfl
theorem test_decode_encRecord : decode 0b00000000000000000000000000000011#32 = .ok .encRecord := by rfl
theorem test_decode_buildFrame : decode 0b00000000000000000000000000000100#32 = .ok .buildFrame := by rfl
theorem test_decode_decodeFrame : decode 0b00000000000000000000000000000101#32 = .ok .decodeFrame := by rfl
theorem test_decode_txFrame : decode 0b00000000000000000000000000000110#32 = .ok .txFrame := by rfl
theorem test_decode_rbPush : decode 0b00000000000000000000000000010000#32 = .ok .rbPush := by rfl
theorem test_decode_rbPop : decode 0b00000000000000000000000000010001#32 = .ok .rbPop := by rfl
theorem test_decode_rbPeek : decode 0b00000000000000000000000000010010#32 = .ok .rbPeek := by rfl
theorem test_decode_rbDrain : decode 0b00000000000000000000000000010011#32 = .ok .rbDrain := by rfl
theorem test_decode_devCreate : decode 0b00000000000000000000000000100000#32 = .ok .devCreate := by rfl
theorem test_decode_devQuery : decode 0b00000000000000000000000000100001#32 = .ok .devQuery := by rfl
theorem test_decode_devList : decode 0b00000000000000000000000000100010#32 = .ok .devList := by rfl
theorem test_decode_cacheCmd : decode 0b00000000000000000000000000100011#32 = .ok .cacheCmd := by rfl
theorem test_decode_trySend : decode 0b00000000000000000000000000100100#32 = .ok .trySend := by rfl
theorem test_decode_postProcess : decode 0b00000000000000000000000000100101#32 = .ok .postProcess := by rfl
theorem test_decode_rxPoll : decode 0b00000000000000000000000000100110#32 = .ok .rxPoll := by rfl
theorem test_decode_gateAcquire : decode 0b00000000000000000000000000110000#32 = .ok .gateAcquire := by rfl
theorem test_decode_gateRelease : decode 0b00000000000000000000000000110001#32 = .ok .gateRelease := by rfl
theorem test_decode_shutdown : decode 0b00000000000000000000000000110010#32 = .ok .shutdown := by rfl
/-- The first and last code of each gap of R57, and words with one bit of RSV set. -/
theorem test_decode_illegal :
    [0x07, 0x0F, 0x14, 0x1F, 0x27, 0x2F, 0x33, 0xFF].all (fun w => decode (BitVec.ofNat 32 w) matches .error .unassignedCode)
      ∧ [0x100, 0x80000000, 0x105].all (fun w => decode (BitVec.ofNat 32 w) matches .error .reservedBits) := by decide
/-- The host's form: the table's number is the word; a number past 32 bits is no command word. -/
theorem test_decode_tableWord : decodeTableWord 32 0x26 = some .rxPoll ∧ decodeTableWord 32 0x27 = none
    ∧ decodeTableWord 8 0x10 = some .rbPush ∧ decodeTableWord 32 0x126 = none := by decide

/-! ## Helpers -/

/-- Bytes from numbers. -/
def bytes (l : List Nat) : List Byte := l.map (BitVec.ofNat 8)

/-- A buffer that starts with the bytes given. -/
def buf (l : List Nat) : Memory := Memory.ofBytes (bytes l)

/-- EX after reset, with the bank of context 0 replaced. -/
def at0 (c : Ctx) : State := (State.resetWith ex).setCtx c

/-- The next state, if there is one. -/
def nextOf : Host.Outcome State Fault Refusal → Option State
  | .next t => some t
  | .fault _ => none
  | .refused _ => none

/-- The operation completes, and the state after it is as a function says. -/
def after (i : Instr) (s : State) (f : State → Bool) : Bool := ((nextOf (exec i s)).map f).getD false

/-- Argument registers with a device. -/
def args (devid : BitVec 24) (prod cmd retries : Byte) : Args :=
  { Ctx.reset.args with devid := devid, mfr := 4, prod := prod, cmd := cmd, retries := retries }

/-- The gate held by a context. -/
def heldBy (n : BitVec 8) : Gate := { init := true, held := true, owner := n }

/-- The gate free, the transceiver initialised. -/
def idleGate : Gate := { init := true, held := false, owner := 0 }

/-- The first bytes of a buffer. -/
def firstBytes (m : Memory) (n : Nat) : List Nat := (Memory.readRange m 0 n).map (·.toNat)

def f1 : List Nat := [0x0E, 0x04, 0x03, 0x01, 0x00, 0xC2, 0xAE, 0xBA, 0x5F, 0x4F, 0x0D, 0x41, 0x70, 0x50, 0x19]
def f0 : List Nat := [0x0A, 0x04, 0x03, 0x01, 0x00, 0xC2, 0xAE, 0xBA, 0xAB, 0xE4, 0x52]
def fv : List Nat := [0x0E, 0x04, 0x03, 0x22, 0x22, 0xDA, 0xB4, 0xA1, 0x63, 0x6C, 0x84, 0xED, 0x46, 0x5B, 0x20]
def fw : List Nat := [0x0C, 0x04, 0x12, 0x33, 0x33, 0xD2, 0x02, 0x71, 0xDC, 0x73, 0xD1, 0x8B, 0x78]

/-- A received frame in RX_BUF. -/
def received (f : List Nat) : Ctx := { Ctx.reset with rxBuf := buf f, rxLen := BitVec.ofNat 7 f.length }

/-- A valve entry with a command. -/
def valve (cmd retries : Byte) (pending active : Bool) : Dev :=
  { devid := 0x1234, mfr := 4, prod := 3, cls := .smallWindow, ext := .valve, wakeGated := false, joined := false, seen := active,
    hasCc := true,
    cc := { pending := pending, cmd := if pending then cmd else 0, data := 0
            retries := if pending then retries else 0
            active := active,
            frame := buf [0x0C, 0x04, 0x03, 0x01, 0x00, 0xC2, 0xAE, 0xBA, 0x08, 0xDD, 0x18, 0x42, 0x0D], flen := 13 },
    th := { mode := 0, modeKnown := false, lastTel := 0 } }

/-- An entry without a CachedCommand (product 1, class Always). -/
def plain (devid : BitVec 24) : Dev :=
  { Dev.blank with devid := devid, mfr := 4, prod := 1, cls := .always }

/-- A thermostat entry with a known mode, and a command or none. -/
def thermo (pending : Bool) : Dev :=
  { devid := 0xABCD, mfr := 4, prod := 0x12, cls := .smallWindow, ext := .thermostat, wakeGated := true, joined := false,
    seen := true, hasCc := true,
    cc := { pending := pending, cmd := if pending then 0xAA else 0
            data := if pending then 0x3F800000 else 0
            retries := if pending then 2 else 0
            active := true,
            frame := buf [0x0D, 0x04, 0x12, 0x66, 0x66, 0xFA, 0x8C, 0x41, 0xC8, 0x70, 0xD1, 0x50, 0xB6, 0x94], flen := 14 },
    th := { mode := 0x3F800000, modeKnown := true, lastTel := 20 } }

/-- A bank whose last DECODE_FRAME took the frame `f`. -/
def decoded (f : List Nat) : Ctx := (received f).writeDecode (decodeFrame 242 (buf f) f.length)

/-! ## One step of each operation -/

theorem test_nop : after .nop (at0 { Ctx.reset with code := .empty, busy := true })
      (fun t => t.ctx.code == .ok && t.ctx.busy == false) := by decide +kernel

/-- V-CRC-9. -/
theorem test_crc16 :
    after .crc16 (at0 { Ctx.reset with recBuf := buf [0x31, 0x32, 0x33, 0x34, 0x35, 0x36, 0x37, 0x38, 0x39]
                                       args := { Ctx.reset.args with len := 9 } })
      (fun t => t.ctx.code == .ok && t.ctx.rCrc == 0x31C3) := by decide +kernel
/-- V-CRC-11. -/
theorem test_crc16_past_end :
    after .crc16 (at0 { Ctx.reset with rCrc := 7, args := { Ctx.reset.args with off := 50, len := 7 } })
      (fun t => t.ctx.code == .badOperand && t.ctx.rCrc == 7) := by decide +kernel

/-- V-CI-6. -/
theorem test_cipher :
    after .cipher (at0 { Ctx.reset with txBuf := buf [1, 2, 3, 4]
                                        args := { Ctx.reset.args with bufSelect := 1, len := 4, pip := 0x0100 } })
      (fun t => t.ctx.code == .ok && firstBytes t.ctx.txBuf 5 == [0xC3, 0xBE, 0x8D, 0xAF, 0]) := by decide +kernel
/-- V-CI-7: the keystream starts at the range's first byte. -/
theorem test_cipher_offset :
    after .cipher (at0 { Ctx.reset with txBuf := buf [0, 0, 0, 0x11, 0x22, 0x33]
                                        args := { Ctx.reset.args with bufSelect := 1, off := 3, len := 3, pip := 0x0100 } })
      (fun t => firstBytes t.ctx.txBuf 7 == [0, 0, 0, 0xD3, 0x9E, 0xBD, 0]) := by decide +kernel

/-- V-FE-2: a negative value, truncated toward zero and sent in two's complement. -/
theorem test_encRecord :
    after .encRecord (at0 { Ctx.reset with args := { Ctx.reset.args with cmd := 0xF4, data := 0xC1AC0000 } })
      (fun t => t.ctx.code == .ok && t.ctx.recLen == 4 && firstBytes t.ctx.recBuf 4 == [0xF4, 0x92, 0xEA, 0x80]) := by
  decide +kernel
/-- V-FE-27: the length check comes first. -/
theorem test_encRecord_order :
    after .encRecord (at0 { Ctx.reset with recLen := 57, args := { Ctx.reset.args with cmd := 0x55 } })
      (fun t => t.ctx.code == .badOperand) := by decide +kernel
/-- V-FE-5, V-FE-6, V-FE-8, V-FE-11, V-FE-12, V-FE-21: the range, and what is drawn. -/
theorem test_encValue :
    encValue ⟨0xF3, 0x73, .sintBP8, 2⟩ 0x42FFFE00 = some [0x7F, 0xFF] ∧ encValue ⟨0xF3, 0x73, .sintBP8, 2⟩ 0x43000000 = none
      ∧ encValue ⟨0xF3, 0x73, .sintBP8, 2⟩ 0xC3000100 = none ∧ encValue ⟨0xC0, 0x40, .uintBP4, 2⟩ 0xBF800000 = none
      ∧ encValue ⟨0xC0, 0x40, .uintBP4, 2⟩ 0xBC23D70A = some [0, 0] ∧ encValue ⟨0xA4, 0x24, .uint, 1⟩ 0x7FC00000 = none := by
  decide +kernel

/-- V-FE-29. -/
theorem test_buildFrame :
    after .buildFrame
      { at0 { Ctx.reset with recBuf := buf [0xF4, 0x92, 0x15, 0x80], recLen := 4, args := args 0x1234 3 0 0 } with
        env := { Env.reset with nonces := [0x0100] } }
      (fun t => t.ctx.code == .ok && t.ctx.txLen == 15 && t.ctx.rPip == 0x0100 && firstBytes t.ctx.txBuf 15 == f1) := by
  decide +kernel

/-- V-FD-4: a signed value. -/
theorem test_decodeFrame :
    after .decodeFrame
      (at0 (received [0x0E, 0x04, 0x03, 0x01, 0x00, 0xC2, 0xAE, 0xBA, 0x5F, 0x4F, 0xF2, 0x41, 0x70, 0x9F, 0x7A]))
      (fun t => t.ctx.code == .ok && t.ctx.dec.valid == true && t.ctx.dec.nrec == 1 && t.ctx.dec.devid == 0x1234
        && t.ctx.dec.recs.head? == some (⟨0x74, true, 9, 2, 10, [0xEA, 0x80] ++ List.replicate 13 0, BitVec.ofInt 128 (-5504), 8, true, true⟩ : DecRec)) := by decide +kernel
/-- V-FD-9a: one changed byte, and PLAIN_BUF holds what was decrypted. -/
theorem test_decodeFrame_tampered :
    after .decodeFrame (at0 (received (f1.set 10 0x0C)))
      (fun t => t.ctx.code == .crcMismatch && t.ctx.dec.valid == false
        && firstBytes t.ctx.plainBuf 15 == [0x0E, 4, 3, 1, 0, 0, 0x12, 0x34, 0xF4, 0x92, 0x14, 0x80, 0, 0x50, 0x19]) := by
  decide +kernel

/-- V-FE-37. -/
theorem test_txFrame :
    after .txFrame { at0 { Ctx.reset with txBuf := buf f1, txLen := 15 } with gate := heldBy 0 }
      (fun t => t.ctx.code == .ok && t.events == [.transmit (bytes f1) 15 0]) := by decide +kernel
/-- V-FE-38. -/
theorem test_txFrame_other :
    after .txFrame { at0 { Ctx.reset with txBuf := buf f1, txLen := 15 } with gate := heldBy 1 }
      (fun t => t.ctx.code == .notLockOwner && t.events == []) := by decide +kernel

/-- A ring of the one-byte frames 1 to 5, all unread: V-RB-2's start. -/
def fullRing : Ring :=
  { slots := [1, 2, 3, 4, 5].map (fun i => { bytes := buf [i], len := 1, ts := BitVec.ofNat 64 (100 * i) }),
    head := 0, tail := 0, count := 5 }

/-- V-RB-2. -/
theorem test_rbPush_full :
    after .rbPush { at0 { Ctx.reset with rxBuf := buf [6], rxLen := 1, args := { Ctx.reset.args with time := 600 } } with
                    ring := fullRing }
      (fun t => t.ctx.code == .ok && t.ring.head == 1 && t.ring.tail == 1 && t.ring.count == 5
        && t.ring.slots.map (fun e => firstBytes e.bytes 1) == [[6], [2], [3], [4], [5]]) := by decide +kernel
/-- V-RB-4. -/
theorem test_rbPop_empty :
    after .rbPop (at0 (received [9]))
      (fun t => t.ctx.code == .empty && firstBytes t.ctx.rxBuf 1 == [9] && t.ctx.rxLen == 1) := by
  decide +kernel
/-- 43_ring_buffer.md R115: the oldest frame, and all 67 bytes of RX_BUF. -/
theorem test_rbPop :
    after .rbPop { at0 (received [9, 9]) with ring := fullRing }
      (fun t => t.ctx.code == .ok && firstBytes t.ctx.rxBuf 2 == [1, 0] && t.ctx.rxLen == 1 && t.ctx.rTs == 100
        && t.ring.tail == 1 && t.ring.count == 4) := by decide +kernel
/-- V-RB-3's index 4: the newest frame. -/
theorem test_rbPeek :
    after .rbPeek { at0 { Ctx.reset with args := { Ctx.reset.args with index := 4 } } with ring := fullRing }
      (fun t => t.ctx.code == .ok && firstBytes t.ctx.rxBuf 1 == [5] && t.ctx.rTs == 500 && t.ring == fullRing) := by
  decide +kernel
/-- V-RB-8. -/
theorem test_rbDrain :
    after .rbDrain { at0 Ctx.reset with
                     gate := heldBy 0, now := 50
                     env := { Env.reset with waitAnswers := [true, true, false], readAnswers := [.ok (bytes f1), .ok (bytes f0)] } }
      (fun t => t.ctx.code == .ok && t.events.length == 5 && t.ring.count == 2
        && (t.ring.slots.map (fun e => (e.len, e.ts))).take 3 == [(15, 50), (11, 50), (0, 0)]) := by decide +kernel
/-- V-RB-11: a read error ends the pass. -/
theorem test_rbDrain_error :
    after .rbDrain { at0 Ctx.reset with
                     gate := heldBy 0, env := { Env.reset with waitAnswers := [true], readAnswers := [.err] } }
      (fun t => t.ctx.code == .ok && t.events == [.hasFrameWaiting true, .readFrame 67 .err] && t.ring.count == 0) := by
  decide +kernel

/-- V-RG-1, the first creation. -/
theorem test_devCreate :
    after .devCreate (at0 { Ctx.reset with args := { args 0x1234 3 0 0 with flags := 0b10 } })
      (fun t => t.ctx.code == .ok && t.ctx.rCreated == true && t.devs.length == 1 && t.ctx.dev.cls == 2
        && t.ctx.dev.ext == 1 && t.ctx.dev.joined == false && t.ctx.dev.seen == true && t.ctx.dev.hasCc == true) := by decide +kernel
/-- V-RG-3, the fifth creation. -/
theorem test_devCreate_full :
    after .devCreate { at0 { Ctx.reset with args := args 5 1 0 0 } with devs := [plain 1, plain 2, plain 3, plain 4] }
      (fun t => t.ctx.code == .capacityExceeded && t.fatal == true && t.devs.length == 4) := by decide +kernel
/-- V-RG-5. -/
theorem test_devQuery :
    after .devQuery (at0 { Ctx.reset with args := args 1 0 0 0, dev := { DevReport.reset with found := true, mfr := 9 } })
      (fun t => t.ctx.code == .notFound && t.ctx.dev == DevReport.reset) := by decide +kernel
/-- V-RG-4's index 1. -/
theorem test_devList :
    after .devList { at0 { Ctx.reset with args := { Ctx.reset.args with index := 1 } } with devs := [plain 1, plain 2] }
      (fun t => t.ctx.code == .ok && t.ctx.dev.found == true && t.ctx.dev.devid == 2) := by decide +kernel

/-- V-CC-1. -/
theorem test_cacheCmd :
    after .cacheCmd { at0 { Ctx.reset with args := args 0x1234 3 0xA3 3 } with env := { Env.reset with nonces := [0x0100] } }
      (fun t => t.ctx.code == .ok && t.ctx.rCreated == true && t.ctx.rPip == 0x0100 && t.cntPrecached == 1
        && t.cntActive == 0 && t.devs == [valve 0xA3 3 true false]) := by decide +kernel
/-- V-CC-2. -/
theorem test_cacheCmd_cancel_unknown :
    after .cacheCmd (at0 { Ctx.reset with args := args 9 2 0 0 })
      (fun t => t.ctx.code == .cancelUnknownDevice && t.devs == []) := by decide +kernel
/-- Program P3's first send: transmitted once, promoted, one retry less. -/
theorem test_trySend :
    after .trySend { at0 { Ctx.reset with args := args 0x1234 3 0 0 } with
                     gate := heldBy 0, devs := [valve 0xA3 3 true false], cntPrecached := 1 }
      (fun t => t.ctx.code == .ok && t.ctx.rSent == true && t.events.length == 1 && t.cntActive == 1
        && t.cntPrecached == 0 && t.ctx.dev.retries == 2 && t.ctx.dev.active == true) := by decide +kernel
/-- V-CC-10. -/
theorem test_trySend_spent :
    after .trySend { at0 { Ctx.reset with args := args 0x1234 3 0 0 } with
                     gate := heldBy 0, devs := [valve 0xA3 0 true false], cntPrecached := 1 }
      (fun t => t.ctx.code == .ok && t.ctx.rSent == false && t.events == [] && t.cntPrecached == 0
        && t.ctx.dev.pending == false) := by
  decide +kernel
/-- V-PP-1. -/
theorem test_postProcess :
    after .postProcess { at0 (decoded fv) with devs := [valve 0xA6 3 true false], cntPrecached := 1 }
      (fun t => t.ctx.code == .ok && t.ctx.post.acked == true && t.ctx.post.hasWake == false
        && t.ctx.dev.pending == false && t.cntPrecached == 0) := by decide +kernel
/-- Program P5's third poll: the auto-telemetry command. -/
theorem test_postProcess_auto :
    after .postProcess { at0 { decoded fw with args := { Ctx.reset.args with time := 400 } } with
                         devs := [thermo false], env := { Env.reset with nonces := [0x5555] } }
      (fun t => t.ctx.code == .ok && t.ctx.post.autoCached == true && t.ctx.dev.cmdId == 0xAA && t.ctx.dev.retries == 2
        && t.cntActive == 1
        && firstBytes (t.dev 0).cc.frame 14 == [0x0D, 0x04, 0x12, 0x55, 0x55, 0xE2, 0xF6, 0x51, 0x7D, 0x57, 0x2E, 0x0B, 0xB6, 0x94]) := by
  decide +kernel

/-- 44_retry_sequencer.md R137. -/
theorem test_rxPoll :
    after .rxPoll { at0 { Ctx.reset with args := { Ctx.reset.args with timeout := 10 } } with now := 1000 }
      (fun t => t.ctx.busy == true && t.ctx.poll.rxs == .draining && t.ctx.poll.deadline == 1010
        && t.ctx.poll.zero == false) := by
  decide +kernel
/-- V-RX-3's first DECODING step: SLEEP_LONG with nothing outstanding. -/
theorem test_rxPoll_sleeps :
    (fun t : State => (t.ctx.busy, t.ctx.poll.rxs, t.ctx.poll.wake))
      (State.proceed { at0 { Ctx.reset with busy := true, poll := { Ctx.reset.poll with rxs := .decoding, deadline := 1010 } } with
                       now := 1000 }) = (true, .idle, 1005) := by decide +kernel
/-- 45_radio_gate.md R147: the first acquire initialises the transceiver. -/
theorem test_gateAcquire :
    after .gateAcquire { at0 Ctx.reset with env := { Env.reset with initAnswers := [true] } }
      (fun t => t.ctx.code == .ok && t.ctx.rAlready == false && t.gate == heldBy 0
        && t.events == [.initCall true, .setMode ⟨0, 0⟩]) := by decide +kernel
/-- 45_radio_gate.md R147: another context holds the gate. -/
theorem test_gateAcquire_waits :
    after .gateAcquire { at0 Ctx.reset with gate := heldBy 1 }
      (fun t => t.ctx.busy == true && t.ctx.poll.rxs == .gateWait && t.events == []) := by decide +kernel
theorem test_gateRelease :
    after .gateRelease { at0 Ctx.reset with gate := heldBy 0 }
      (fun t => t.ctx.code == .ok && t.gate == idleGate) := by
  decide +kernel
theorem test_shutdown :
    after .shutdown { at0 Ctx.reset with gate := heldBy 0 }
      (fun t => t.ctx.code == .ok && t.gate == { init := false, held := false, owner := 0 } && t.events == [.shutdown]) := by decide +kernel

/-- The host's form of one step from reset, for any parameters. -/
theorem test_step_from_reset :
    (nextOf (step (State.reset.withFetchWord 32 0x00000000))).isSome = true := by decide +kernel

/-- 10_state.md R19, 60_exceptions.md R152: NOT_FOUND is 14, and a busy context reads bit 8 as 1. -/
theorem test_status : (at0 { Ctx.reset with code := .notFound }).hostRead 0 .status = some 14
    ∧ (at0 { Ctx.reset with code := .empty, busy := true }).hostRead 0 .status = some 0x108 := by decide +kernel

/-! ## Witnesses: states and operands that meet the statements' hypotheses, clause by clause -/

/-- Some state with issuing bank `c` meets the hypotheses. -/
def Meets (hyp : State → Ctx → Prop) : Prop := ∃ (s : State) (c : Ctx), s.ctxs[s.cur]? = some c ∧ hyp s c

/-- EX after reset with these inputs lined up, and the bank of context 0. -/
def fed (c : Ctx) (is : List Input) : State := { at0 c with env := { Env.reset with inputs := is } }

/-- A bank with a byte range of a buffer. -/
def range (b : BitVec 2) (off len : BitVec 7) : Ctx :=
  { Ctx.reset with args := { Ctx.reset.args with bufSelect := b, off := off, len := len } }

/-- EX with the gate held by context 0, and its bank. -/
def holder (c : Ctx) : State := { at0 c with gate := heldBy 0 }

/-- EX with entries, and the bank of context 0. -/
def listing (c : Ctx) (ds : List Dev) : State := { at0 c with devs := ds }

/-- A bank in a poll state. -/
def polling (p : PollState) : Ctx := { Ctx.reset with busy := true, poll := { Ctx.reset.poll with rxs := p, deadline := 10 } }

/-- A ring with one unread frame. -/
def ringOf (f : List Nat) : Ring := Ring.reset.push (bytes f) 7

theorem test_witness_IllegalWords : ∃ (s : State) (n : Nat) (w : Word) (c : Ctx), s.nextInput = .command n w
    ∧ s.ctxs[n]? = some c ∧ c.busy = false ∧ ∃ e, decode w = .error e :=
  ⟨fed Ctx.reset [.command 1 0x33], 1, 0x33, Ctx.reset, by decide +kernel, by decide +kernel, by decide, .unassignedCode, rfl⟩

theorem test_witness_StepRunsDecoded_idle : ∃ (s : State) (n : Nat) (w : Word) (i : Instr) (c : Ctx),
    s.nextInput = .command n w ∧ s.ctxs[n]? = some c ∧ c.busy = false ∧ decode w = .ok i :=
  ⟨fed Ctx.reset [.command 1 0x32], 1, 0x32, .shutdown, Ctx.reset, by decide +kernel, by decide +kernel, by decide, rfl⟩
theorem test_witness_StepRunsDecoded_busy : ∃ (s : State) (n : Nat) (w : Word) (c : Ctx),
    s.nextInput = .command n w ∧ s.ctxs[n]? = some c ∧ c.busy = true :=
  ⟨fed (polling .idle) [.command 0 0], 0, 0, polling .idle, by decide +kernel⟩

theorem test_witness_SingleStepOperationsFinish : Meets (fun _ _ => Instr.cacheCmd ≠ .gateAcquire ∧ Instr.cacheCmd ≠ .rxPoll) :=
  ⟨at0 Ctx.reset, Ctx.reset, by decide +kernel⟩

theorem test_witness_PlatformReset : ∃ s : State, s.nextInput = .reset := ⟨fed (polling .idle) [.reset], by decide +kernel⟩

theorem test_witness_BootAcceptsWellFormed : boot exRaw = .next (State.resetWith ex) := by rfl

theorem test_witness_HostWriteOnlyStores : ∃ (s : State) (c : Ctx) (w v : HostWrite), s.nextInput = .hostWrite 0 w
    ∧ s.ctxs[0]? = some c ∧ c.memOk = true ∧ writeExists w = true ∧ writeExists v = false
    ∧ (fed c [.hostWrite 0 v]).nextInput = .hostWrite 0 v :=
  ⟨fed (received f1) [.hostWrite 0 (.recByte 55 1)], received f1, .recByte 55 1, .recByte 56 1, by decide +kernel⟩

/-- A bank with each of the 15 codes, busy or not. -/
theorem test_witness_HostReadResult_status : ∀ q ∈ [Code.ok, .frameLen, .crcMismatch, .unknownCommand, .deviceNotCacheable,
      .cancelUnknownDevice, .lockUnavailable, .capacityExceeded, .empty, .noMessage, .notLockOwner, .illegalOp, .badOperand,
      .recordBufferFull, .notFound], ∀ b ∈ [false, true],
    ∃ (s : State) (c : Ctx), s.ctxs[0]? = some c ∧ c.code = q ∧ c.busy = b := by
  intro q _ b _
  exact ⟨at0 { Ctx.reset with code := q, busy := b }, { Ctx.reset with code := q, busy := b }, rfl, rfl, rfl⟩
/-- The last decoded record and its last value byte, and a registry at the largest DEV_MAX. -/
theorem test_witness_HostReadResult :
    Meets (fun _ c => ∃ r b, c.dec.recs[27]? = some r ∧ r.raw[14]? = some b) ∧ Meets (fun s _ => s.devs.length = 65535) :=
  ⟨⟨at0 Ctx.reset, Ctx.reset, by decide +kernel, DecRec.reset, 0, by decide +kernel, by decide +kernel⟩,
    ⟨listing Ctx.reset (List.replicate 65535 Dev.blank), Ctx.reset, rfl, List.length_replicate⟩⟩

theorem test_witness_KeystreamIndependentOfData : [0x5A#8][0]? = some 0x5A#8 := rfl

theorem test_witness_ZeroSeed : cipherSeed 242 0xF200 = 0 ∧ cipherSeed 242 0xF201 ≠ 0 := by decide

theorem test_witness_Crc16Result :
    Meets (fun _ c => c.args.off.toNat + c.args.len.toNat ≤ (if c.args.bufSelect = 0 then 56 else 67) ∧ c.args.bufSelect = 0)
      ∧ Meets (fun _ c => c.args.off.toNat + c.args.len.toNat ≤ (if c.args.bufSelect = 0 then 56 else 67) ∧ c.args.bufSelect = 3)
      ∧ Meets (fun _ c => (if c.args.bufSelect = 0 then 56 else 67) < c.args.off.toNat + c.args.len.toNat ∧ c.args.bufSelect = 0)
      ∧ Meets (fun _ c => (if c.args.bufSelect = 0 then 56 else 67) < c.args.off.toNat + c.args.len.toNat ∧ c.args.bufSelect = 2) :=
  ⟨⟨at0 (range 0 50 6), range 0 50 6, by decide +kernel⟩, ⟨at0 (range 3 60 7), range 3 60 7, by decide +kernel⟩, ⟨at0 (range 0 50 7), range 0 50 7, by decide +kernel⟩,
    ⟨at0 (range 2 1 67), range 2 1 67, by decide +kernel⟩⟩

theorem test_witness_CipherResult : Meets (fun _ c => Memory.wf (if c.args.bufSelect = 0 then 56 else 67) (c.buf c.args.bufSelect) = true
    ∧ c.args.off.toNat + c.args.len.toNat ≤ (if c.args.bufSelect = 0 then 56 else 67) ∧ c.args.len = 7) :=
  ⟨at0 { range 2 60 7 with rxBuf := buf f1 }, { range 2 60 7 with rxBuf := buf f1 }, by decide +kernel⟩

theorem test_witness_EncodedValue : ∃ (r : CmdRow) (d e : BitVec 32), r.len ≠ 0 ∧ d.extractLsb' 23 8 ≠ 255#8
    ∧ inRange 32767 r.len.toNat (typeSigned (intTypeCode r.type)) = true
    ∧ inRange 32768 r.len.toNat (typeSigned (intTypeCode r.type)) = false ∧ e.extractLsb' 23 8 = 255#8 :=
  ⟨⟨0xF3, 0x73, .sintBP8, 2⟩, 0x42FFFE00, 0x7F800000, by decide +kernel⟩

theorem test_witness_RecordRoundTrip : ∃ (r : CmdRow) (d : BitVec 32) (v : List Byte), r.len ≠ 0 ∧ encValue r d = some v :=
  ⟨⟨0xF3, 0x73, .sintBP8, 2⟩, 0xC3000000, [0x80, 0x00], by decide +kernel⟩

/-- A bank with a record length and a command. -/
def encBank (n : BitVec 7) (cmd : Byte) (d : BitVec 32) : Ctx :=
  { Ctx.reset with recLen := n, args := { Ctx.reset.args with cmd := cmd, data := d } }

theorem test_witness_EncRecordResult_errors :
    Meets (fun _ c => Memory.wf 56 c.recBuf = true ∧ 56 < c.recLen.toNat)
      ∧ Meets (fun s c => Memory.wf 56 c.recBuf = true ∧ c.recLen.toNat ≤ 56 ∧ cmdLookup s.cfg c.args.cmd = none) :=
  ⟨⟨at0 (encBank 57 0 0), encBank 57 0 0, by decide +kernel⟩, ⟨at0 (encBank 56 0x55 0), encBank 56 0x55 0, by decide +kernel⟩⟩
theorem test_witness_EncRecordResult_fits : Meets (fun s c => ∃ r v u, c.recLen.toNat ≤ 56 ∧ cmdLookup s.cfg c.args.cmd = some r
    ∧ ValueBytes s r c.args.data v u ∧ c.recLen.toNat + 2 + r.len.toNat ≤ 56) :=
  ⟨at0 (encBank 52 0xF4 0x41AC0000), encBank 52 0xF4 0x41AC0000, by decide +kernel, ⟨0xF3, 0x73, .sintBP8, 2⟩, [0x15, 0x80], at0 (encBank 52 0xF4 0x41AC0000),
    by decide +kernel, by decide +kernel, .inl ⟨by decide +kernel, rfl⟩, by decide +kernel⟩
theorem test_witness_EncRecordResult_full : Meets (fun s c => ∃ r v u, c.recLen.toNat ≤ 56 ∧ cmdLookup s.cfg c.args.cmd = some r
    ∧ ValueBytes s r c.args.data v u ∧ 56 < c.recLen.toNat + 2 + r.len.toNat) :=
  ⟨at0 (encBank 53 0xF4 0x43000000), encBank 53 0xF4 0x43000000, by decide +kernel, ⟨0xF3, 0x73, .sintBP8, 2⟩, _, _,
    by decide +kernel, by decide +kernel, .inr ⟨by decide +kernel, rfl, rfl⟩, by decide +kernel⟩

theorem test_witness_FrameLayout : (List.replicate 56 (0 : Byte)).length ≤ 56 := by decide

theorem test_witness_BuildFrameResult : Meets (fun _ c => 56 < c.recLen.toNat)
    ∧ Meets (fun _ c => c.recLen.toNat ≤ 56 ∧ Memory.wf 67 c.txBuf = true ∧ c.recLen = 56) :=
  ⟨⟨at0 (encBank 57 0 0), encBank 57 0 0, by decide +kernel⟩, ⟨at0 (encBank 56 0 0), encBank 56 0 0, by decide +kernel⟩⟩

theorem test_witness_TxFrameResult :
    Meets (fun s _ => ¬(s.gate.held = true ∧ s.gate.owner = BitVec.ofNat 8 s.cur))
      ∧ Meets (fun s c => s.gate.held = true ∧ s.gate.owner = BitVec.ofNat 8 s.cur ∧ c.txLen = 0)
      ∧ Meets (fun s c => s.gate.held = true ∧ s.gate.owner = BitVec.ofNat 8 s.cur ∧ 67 < c.txLen.toNat)
      ∧ Meets (fun s c => s.gate.held = true ∧ s.gate.owner = BitVec.ofNat 8 s.cur ∧ 1 ≤ c.txLen.toNat ∧ c.txLen.toNat ≤ 67) :=
  ⟨⟨at0 Ctx.reset, Ctx.reset, by decide +kernel⟩, ⟨holder Ctx.reset, Ctx.reset, by decide +kernel⟩,
    ⟨holder { Ctx.reset with txLen := 68 }, { Ctx.reset with txLen := 68 }, by decide +kernel⟩,
    ⟨holder { Ctx.reset with txLen := 67 }, { Ctx.reset with txLen := 67 }, by decide +kernel⟩⟩

theorem test_witness_DecodeOutcome : ∃ (b d : Memory) (n l : Nat), (Memory.read b 0).toNat = l ∧ (Memory.read d 0).toNat = l
    ∧ 10 ≤ l ∧ l ≤ 66 ∧ l + 1 ≤ n ∧ (decodeFrame 242 b n matches .ok _) = true
    ∧ (decodeFrame 242 d n matches .crcMismatch _) = true ∧ decodeFrame 242 b l = .frameLen :=
  ⟨buf f0, buf (f0.set 10 0), 11, 10, by decide +kernel⟩

/-- A record of two value bytes. -/
def diagnostics : WireRecord := { cf := false, pid := 0x26, type := 0, value := [0x00, 0x40] }

theorem test_witness_RecordsParsedUntilStop : ∀ rest ∈ [[], [0x80#8, 0x01#8], [0x11#8], [0x26#8, 0x05#8, 0x00#8]],
    (∀ r ∈ [diagnostics], r.ok = true) ∧ 8 + ([diagnostics].flatMap WireRecord.bytes).length + rest.length ≤ 67
      ∧ (rest = [] ∨ (rest.headD 0).extractLsb' 0 7 = 0#7 ∨ rest.length = 1
        ∨ rest.length < 2 + ((rest.getD 1 0).extractLsb' 0 4).toNat) := by decide

theorem test_witness_DecodeFrameResult :
    Meets (fun _ c => c.memOk = true ∧ 67 < c.rxLen.toNat)
      ∧ Meets (fun s c => c.memOk = true ∧ c.rxLen.toNat ≤ 67 ∧ c.rxLen = 67
          ∧ decodeFrame s.cfg.cryptKey c.rxBuf c.rxLen.toNat = .frameLen)
      ∧ Meets (fun s c => c.memOk = true ∧ c.rxLen.toNat ≤ 67
          ∧ (decodeFrame s.cfg.cryptKey c.rxBuf c.rxLen.toNat matches .crcMismatch _) = true)
      ∧ Meets (fun s c => c.memOk = true ∧ c.rxLen.toNat ≤ 67
          ∧ (decodeFrame s.cfg.cryptKey c.rxBuf c.rxLen.toNat matches .ok _) = true) :=
  ⟨⟨at0 { Ctx.reset with rxLen := 68 }, { Ctx.reset with rxLen := 68 }, by decide +kernel⟩, ⟨at0 { Ctx.reset with rxLen := 67 }, { Ctx.reset with rxLen := 67 }, by decide +kernel⟩,
    ⟨at0 (received (f1.set 10 0x0C)), received (f1.set 10 0x0C), by decide +kernel⟩, ⟨at0 (received f1), received f1, by decide +kernel⟩⟩

theorem test_witness_FrameRoundTrip : Meets (fun _ c => c.memOk = true ∧ c.recLen.toNat ≤ 56
    ∧ (∀ r ∈ [diagnostics, diagnostics], r.ok = true)
    ∧ Memory.readRange c.recBuf 0 c.recLen.toNat = [diagnostics, diagnostics].flatMap WireRecord.bytes) :=
  ⟨at0 { Ctx.reset with recBuf := buf [0x26, 2, 0, 0x40, 0x26, 2, 0, 0x40], recLen := 8 }, { Ctx.reset with recBuf := buf [0x26, 2, 0, 0x40, 0x26, 2, 0, 0x40], recLen := 8 }, by decide +kernel⟩

theorem test_witness_TamperDetection : ∀ j ∈ [1, 2, 5, 14], j ≤ 4 + 10
    ∧ (frameBytes 242 4 3 0x1234 (bytes [0xF4, 0x92, 0x15, 0x80]) 0x0100)[j]? ≠ some 0xEE#8 := by decide +kernel

theorem test_witness_RbPushResult : Meets (fun _ c => 67 < c.rxLen.toNat)
    ∧ Meets (fun s c => c.rxLen.toNat ≤ 67 ∧ s.ring.ok = true ∧ s.ring.count = 5 ∧ c.rxLen = 67)
    ∧ Meets (fun s c => c.rxLen.toNat ≤ 67 ∧ s.ring.ok = true ∧ s.ring.count ≠ 5 ∧ c.rxLen = 0) :=
  ⟨⟨at0 { Ctx.reset with rxLen := 68 }, { Ctx.reset with rxLen := 68 }, by decide +kernel⟩,
    ⟨{ at0 { Ctx.reset with rxLen := 67 } with ring := fullRing }, { Ctx.reset with rxLen := 67 }, by decide +kernel⟩,
    ⟨at0 Ctx.reset, Ctx.reset, by decide +kernel⟩⟩

theorem test_witness_RbPopResult : Meets (fun s c => Memory.wf 67 c.rxBuf = true ∧ s.ring.ok = true ∧ s.ring.unread = [])
    ∧ Meets (fun s c => Memory.wf 67 c.rxBuf = true ∧ s.ring.ok = true
      ∧ s.ring.unread = slotOf [1] 100 :: [slotOf [2] 200, slotOf [3] 300, slotOf [4] 400, slotOf [5] 500]) :=
  ⟨⟨at0 (received f1), received f1, by decide +kernel⟩, ⟨{ at0 (received f1) with ring := fullRing }, received f1, by decide +kernel⟩⟩

theorem test_witness_RbPeekResult :
    Meets (fun s c => Memory.wf 67 c.rxBuf = true ∧ s.ring.ok = true ∧ s.ring.unread[c.args.index.toNat]? = none)
      ∧ Meets (fun s c => Memory.wf 67 c.rxBuf = true ∧ s.ring.ok = true
        ∧ s.ring.unread[c.args.index.toNat]? = some (slotOf [5] 500)) :=
  ⟨⟨{ at0 { Ctx.reset with args := { Ctx.reset.args with index := 5 } } with ring := fullRing },
      { Ctx.reset with args := { Ctx.reset.args with index := 5 } }, by decide +kernel⟩,
    ⟨{ at0 { Ctx.reset with args := { Ctx.reset.args with index := 4 } } with ring := fullRing },
      { Ctx.reset with args := { Ctx.reset.args with index := 4 } }, by decide +kernel⟩⟩

theorem test_witness_RingKeepsLastFive : fullRing.ok = true ∧ (∀ f ∈ [(bytes f1, 7#64), (List.replicate 67 0#8, 8#64)], f.1.length ≤ 67) := by
  decide +kernel

/-- The holder of the gate with answers of the transceiver, and `n` frames in the ring. -/
def draining (r : Ring) (ws : List Bool) (qs : List ReadAnswer) : State :=
  { holder Ctx.reset with ring := r, env := { Env.reset with waitAnswers := ws, readAnswers := qs } }

theorem test_witness_RbDrainResult_full : Meets (fun s _ => s.ring.ok = true ∧ s.gate.held = true
    ∧ s.gate.owner = BitVec.ofNat 8 s.cur ∧ (∀ f ∈ List.replicate 5 (bytes f1), f.length ≤ 67)
    ∧ (List.replicate 5 (bytes f1)).length + s.ring.count.val = 5 ∧ s.env.waitAnswers = List.replicate 5 true ++ []
    ∧ s.env.readAnswers = (List.replicate 5 (bytes f1)).map .ok ++ []) :=
  ⟨draining Ring.reset (List.replicate 5 true) (List.replicate 5 (.ok (bytes f1))), Ctx.reset, by decide +kernel⟩
theorem test_witness_RbDrainResult_no_more : Meets (fun s _ => s.ring.ok = true ∧ s.gate.held = true
    ∧ s.gate.owner = BitVec.ofNat 8 s.cur ∧ [bytes f1].length + s.ring.count.val < 5
    ∧ s.env.waitAnswers = List.replicate 1 true ++ false :: [] ∧ s.env.readAnswers = [bytes f1].map .ok ++ []) :=
  ⟨draining (ringOf f0) [true, false] [.ok (bytes f1)], Ctx.reset, by decide +kernel⟩
theorem test_witness_RbDrainResult_error : Meets (fun s _ => s.ring.ok = true ∧ s.gate.held = true
    ∧ s.gate.owner = BitVec.ofNat 8 s.cur ∧ ([] : List (List Byte)).length + s.ring.count.val < 5
    ∧ s.env.waitAnswers = List.replicate 0 true ++ true :: [] ∧ s.env.readAnswers = [].map .ok ++ .err :: []) :=
  ⟨draining Ring.reset [true] [.err], Ctx.reset, by decide +kernel⟩

theorem test_witness_DevCreateResult :
    Meets (fun s c => s.registryOk = true ∧ s.devs[1]? = some (plain 2) ∧ (plain 2).devid = c.args.devid)
      ∧ Meets (fun s c => (∀ e ∈ s.devs, e.devid ≠ c.args.devid) ∧ s.devs.length = s.cfg.devMax)
      ∧ Meets (fun s c => (∀ e ∈ s.devs, e.devid ≠ c.args.devid) ∧ s.devs.length < s.cfg.devMax ∧ s.devs.length = 3) :=
  ⟨⟨listing { Ctx.reset with args := args 2 1 0 0 } [plain 1, plain 2], { Ctx.reset with args := args 2 1 0 0 }, by decide +kernel⟩,
    ⟨listing { Ctx.reset with args := args 5 1 0 0 } [plain 1, plain 2, plain 3, plain 4], { Ctx.reset with args := args 5 1 0 0 },
      by decide +kernel⟩,
    ⟨listing { Ctx.reset with args := args 5 1 0 0 } [plain 1, plain 2, plain 3], { Ctx.reset with args := args 5 1 0 0 },
      by decide +kernel⟩⟩

/-- The hypotheses on the tables: the one row of an id, and an id without a row. -/
theorem test_witness_tables :
    ((⟨3, .valve, false⟩ : ProductRow) ∈ ex.productTable ∧ (∀ q ∈ ex.productTable, q.prod = 3 → q = ⟨3, .valve, false⟩)
        ∧ ∀ r ∈ ex.productTable, r.prod ≠ 9)
      ∧ ((⟨0xA2, 0x22, .uint, 0⟩ : CmdRow) ∈ ex.cmdTable ∧ (∀ q ∈ ex.cmdTable, q.id = 0xA3 → q = ⟨0xA2, 0x22, .uint, 0⟩)
        ∧ ∀ r ∈ ex.cmdTable, r.id ≠ 0x55)
      ∧ ((0xA6#8, [0x26#7]) ∈ ex.ackTable ∧ (∀ row ∈ ex.ackTable, row.1 = 0xA6 → row.2 = [0x26]))
      ∧ ∀ row ∈ ex.ackTable, row.1 ≠ 0xA3 := by decide

/-- A bank with a device and an index. -/
def query (devid : BitVec 24) (i : BitVec 16) : Ctx :=
  { Ctx.reset with args := { Ctx.reset.args with devid := devid, index := i } }

theorem test_witness_DevQueryListResult :
    Meets (fun s c => s.registryOk = true ∧ s.devs[0]? = some (thermo true) ∧ (thermo true).devid = c.args.devid)
      ∧ Meets (fun s c => s.registryOk = true ∧ ∀ e ∈ s.devs, e.devid ≠ c.args.devid)
      ∧ Meets (fun s c => s.registryOk = true ∧ s.devs[c.args.index.toNat]? = some (valve 0xA3 1 true true))
      ∧ Meets (fun s c => s.registryOk = true ∧ s.devs.length ≤ c.args.index.toNat ∧ s.devs.length = 2) :=
  ⟨⟨listing (query 0xABCD 0) [thermo true, valve 0xA3 1 true true], query 0xABCD 0, by decide +kernel⟩,
    ⟨listing (query 1 0) [thermo true], query 1 0, by decide +kernel⟩,
    ⟨listing (query 1 1) [thermo true, valve 0xA3 1 true true], query 1 1, by decide +kernel⟩,
    ⟨listing (query 1 2) [thermo true, valve 0xA3 1 true true], query 1 2, by decide +kernel⟩⟩

/-- A bank with the arguments of CACHE_CMD. -/
def caching (devid : BitVec 24) (prod cmd : Byte) : Ctx := { Ctx.reset with args := args devid prod cmd 3 }

theorem test_witness_CacheCmdErrors_unknown :
    Meets (fun s c => (∀ e ∈ s.devs, e.devid ≠ c.args.devid) ∧ c.args.cmd = 0)
      ∧ Meets (fun s c => (∀ e ∈ s.devs, e.devid ≠ c.args.devid) ∧ c.args.cmd ≠ 0
          ∧ (productInfo s.cfg c.args.prod).cls ≠ .smallWindow)
      ∧ Meets (fun s c => (∀ e ∈ s.devs, e.devid ≠ c.args.devid) ∧ c.args.cmd ≠ 0
          ∧ (productInfo s.cfg c.args.prod).cls = .smallWindow ∧ cmdLookup s.cfg c.args.cmd = none) :=
  ⟨⟨at0 (caching 9 2 0), caching 9 2 0, by decide +kernel⟩, ⟨at0 (caching 9 1 0xA3), caching 9 1 0xA3, by decide +kernel⟩, ⟨at0 (caching 9 3 0x55), caching 9 3 0x55, by decide +kernel⟩⟩
theorem test_witness_CacheCmdErrors_capacity : Meets (fun s c => ∃ r v u, (∀ e ∈ s.devs, e.devid ≠ c.args.devid) ∧ c.args.cmd ≠ 0
    ∧ (productInfo s.cfg c.args.prod).cls = .smallWindow ∧ cmdLookup s.cfg c.args.cmd = some r
    ∧ ValueBytes s r c.args.data v u ∧ s.devs.length = s.cfg.devMax) :=
  ⟨listing (caching 9 3 0xA3) [plain 1, plain 2, plain 3, plain 4], caching 9 3 0xA3, by decide +kernel, ⟨0xA2, 0x22, .uint, 0⟩, [], _,
    by decide +kernel, by decide +kernel, by decide +kernel, by decide +kernel, .inl ⟨by decide +kernel, rfl⟩, by decide +kernel⟩
theorem test_witness_CacheCmdErrors_known :
    Meets (fun s c => s.registryOk = true ∧ s.devs[0]? = some (plain 7) ∧ (plain 7).devid = c.args.devid ∧ c.args.cmd ≠ 0
        ∧ (plain 7).hasCc = false)
      ∧ Meets (fun s c => s.registryOk = true ∧ s.devs[0]? = some (valve 0xA3 1 true true)
        ∧ (valve 0xA3 1 true true).devid = c.args.devid ∧ c.args.cmd ≠ 0 ∧ (valve 0xA3 1 true true).hasCc = true
        ∧ cmdLookup s.cfg c.args.cmd = none) :=
  ⟨⟨listing (caching 7 3 0xA3) [plain 7], caching 7 3 0xA3, by decide +kernel⟩,
    ⟨listing (caching 0x1234 3 0x55) [valve 0xA3 1 true true], caching 0x1234 3 0x55, by decide +kernel⟩⟩

theorem test_witness_CacheCmdCancel : ∀ p ∈ [false, true], ∀ a ∈ [false, true],
    Meets (fun s c => s.registryOk = true ∧ s.devs[0]? = some (valve 0xA3 3 p a) ∧ (valve 0xA3 3 p a).devid = c.args.devid
      ∧ c.args.cmd = 0 ∧ (valve 0xA3 3 p a).cc.pending = p) := by
  intro p _ a _
  refine ⟨listing (caching 0x1234 3 0) [valve 0xA3 3 p a], caching 0x1234 3 0, ?_⟩
  revert p a; decide +kernel

theorem test_witness_CacheCmdCreates : Meets (fun s c => ∃ r v u, (∀ e ∈ s.devs, e.devid ≠ c.args.devid) ∧ c.args.cmd ≠ 0
    ∧ (productInfo s.cfg c.args.prod).cls = .smallWindow ∧ cmdLookup s.cfg c.args.cmd = some r ∧ s.devs.length < s.cfg.devMax
    ∧ ValueBytes s r c.args.data v u) :=
  ⟨listing (caching 9 3 0xA3) [plain 1, plain 2, plain 3], caching 9 3 0xA3, by decide +kernel, ⟨0xA2, 0x22, .uint, 0⟩, [], _,
    by decide +kernel, by decide +kernel, by decide +kernel, by decide +kernel, by decide +kernel, .inl ⟨by decide +kernel, rfl⟩⟩

theorem test_witness_CacheCmdStores : ∀ p ∈ [false, true], Meets (fun s c => ∃ r v u, s.registryOk = true
    ∧ s.devs[0]? = some (valve 0xA3 3 p p) ∧ (valve 0xA3 3 p p).devid = c.args.devid ∧ c.args.cmd ≠ 0
    ∧ (valve 0xA3 3 p p).hasCc = true ∧ cmdLookup s.cfg c.args.cmd = some r ∧ ValueBytes s r c.args.data v u) := by
  intro p _
  refine ⟨listing (caching 0x1234 3 0xA6) [valve 0xA3 3 p p], caching 0x1234 3 0xA6, ?_, ⟨0xA5, 0x25, .uint, 0⟩, [], _, ?_, ?_, ?_, ?_,
    ?_, ?_, .inl ⟨?_, rfl⟩⟩ <;> (revert p; decide +kernel)

theorem test_witness_TrySendResult :
    Meets (fun s _ => s.registryOk = true ∧ ¬(s.gate.held = true ∧ s.gate.owner = BitVec.ofNat 8 s.cur))
      ∧ Meets (fun s c => s.registryOk = true ∧ s.gate.held = true ∧ s.gate.owner = BitVec.ofNat 8 s.cur
          ∧ ∀ e ∈ s.devs, e.devid ≠ c.args.devid)
      ∧ ∀ q ∈ [(0#8, false), (0#8, true), (1#8, true), (255#8, true)],
          Meets (fun s c => s.registryOk = true ∧ s.gate.held = true ∧ s.gate.owner = BitVec.ofNat 8 s.cur
            ∧ s.devs[0]? = some (valve 0xA3 q.1 q.2 false) ∧ (valve 0xA3 q.1 q.2 false).devid = c.args.devid) := by
  refine ⟨⟨at0 Ctx.reset, Ctx.reset, by decide +kernel⟩, ⟨holder (query 9 0), query 9 0, by decide +kernel⟩, ?_⟩
  intro q hq
  refine ⟨{ holder (query 0x1234 0) with devs := [valve 0xA3 q.1 q.2 false] }, query 0x1234 0, ?_⟩
  revert q; decide +kernel

theorem test_witness_SendsExactlyRetries : Meets (fun s c => s.registryOk = true ∧ s.gate.held = true
    ∧ s.gate.owner = BitVec.ofNat 8 s.cur ∧ s.devs[0]? = some (valve 0xA3 3 true false)
    ∧ (valve 0xA3 3 true false).devid = c.args.devid ∧ (valve 0xA3 3 true false).cc.pending = true
    ∧ 1 ≤ (valve 0xA3 3 true false).cc.retries.toNat) :=
  ⟨{ holder (query 0x1234 0) with devs := [valve 0xA3 3 true false] }, query 0x1234 0, by decide +kernel⟩

theorem test_witness_PostProcessPlainAndValve :
    Meets (fun s c => s.registryOk = true ∧ c.dec.valid = false)
      ∧ Meets (fun s c => s.registryOk = true ∧ c.dec.valid = true ∧ ∀ e ∈ s.devs, e.devid ≠ c.dec.devid)
      ∧ ∀ q ∈ [0xA6#8, 0xA3#8], Meets (fun s c => ∃ acked, s.registryOk = true ∧ c.dec.valid = true
          ∧ s.devs[0]? = some (valve q 3 true false) ∧ (valve q 3 true false).devid = c.dec.devid
          ∧ (valve q 3 true false).ext ≠ .thermostat
          ∧ acked = ((valve q 3 true false).ext == .valve && (valve q 3 true false).cc.pending
              && (c.dec.recs.take c.dec.nrec.toNat).any (fun r => acknowledges s.cfg (valve q 3 true false).cc.cmd r.pid))) := by
  refine ⟨⟨at0 Ctx.reset, Ctx.reset, by decide +kernel⟩, ⟨at0 (decoded fv), decoded fv, by decide +kernel⟩, ?_⟩
  intro q hq
  refine ⟨listing (decoded fv) [valve q 3 true false], decoded fv, ?_, _, ?_, ?_, ?_, ?_, ?_, rfl⟩ <;> (revert q; decide +kernel)

/-- A bank with the wake frame decoded, at a time. -/
def wakeAt (t : BitVec 64) : Ctx := { decoded fw with args := { Ctx.reset.args with time := t } }

/-- The hypotheses on a thermostat whose auto-telemetry is due, or not. -/
def thermoDue (due : Bool) (s : State) (c : Ctx) : Bool :=
  s.registryOk && c.dec.valid && s.devs[0]? == some (thermo false) && (thermo false).devid == c.dec.devid
    && (thermo false).ext == .thermostat
    && ((c.dec.recs.take c.dec.nrec.toNat).any (fun r => r.pid == s.cfg.paramWakeup) && !(thermo false).cc.pending && (thermo false).th.modeKnown
          && !((thermo false).th.mode == s.cfg.modeGateway)
          && decide ((thermo false).th.lastTel.toNat + s.cfg.telemetryPeriod.toNat ≤ c.args.time.toNat)) == due

/-- Telemetry is due when the period has elapsed, and not one time unit before. The due command has a row of CMD_TABLE. -/
theorem test_witness_PostProcessThermostat :
    Meets (fun s c => thermoDue true s c = true ∧ (cmdLookup s.cfg s.cfg.cmdThermMode).isSome = true)
      ∧ Meets (fun s c => thermoDue false s c = true) :=
  ⟨⟨listing (wakeAt 320) [thermo false], wakeAt 320, by decide +kernel⟩,
    ⟨listing (wakeAt 319) [thermo false], wakeAt 319, by decide +kernel⟩⟩

theorem test_witness_WaitingStepsHold :
    (∃ (s : State) (n : Nat) (c : Ctx), s.nextInput = .proceed n ∧ s.ctxs[n]? = some c)
      ∧ Meets (fun s c => c.poll.rxs = .gateWait ∧ s.gate.held = true)
      ∧ Meets (fun s c => c.poll.rxs = .inject ∧ s.gate.held = true ∧ s.gate.owner ≠ BitVec.ofNat 8 s.cur)
      ∧ Meets (fun s c => c.poll.rxs = .idle ∧ s.now.toNat < c.poll.wake.toNat)
      ∧ Meets (fun s c => c.poll.rxs = .idle ∧ c.poll.wake.toNat ≤ s.now.toNat) :=
  ⟨⟨fed Ctx.reset [.proceed 1], 1, Ctx.reset, by decide +kernel⟩,
    ⟨{ at0 (polling .gateWait) with gate := heldBy 1 }, polling .gateWait, by decide +kernel⟩,
    ⟨{ at0 (polling .inject) with gate := heldBy 1 }, polling .inject, by decide +kernel⟩,
    ⟨at0 { polling .idle with poll := { (polling .idle).poll with wake := 1 } },
      { polling .idle with poll := { (polling .idle).poll with wake := 1 } }, by decide +kernel⟩,
    ⟨at0 (polling .idle), polling .idle, by decide +kernel⟩⟩

/-- The four gates that a step which takes the gate can meet: held by the context, free and initialised, and free and not
initialised with each answer. -/
def gates : List (Gate × Bool) :=
  [(heldBy 0, true), (idleGate, true), (⟨false, false, 0⟩, true), (⟨false, false, 0⟩, false)]

theorem test_witness_gate_clauses : ∀ p ∈ [PollState.draining, .inject, .off], ∀ q ∈ gates,
    Meets (fun s c => c.poll.rxs = p ∧ s.gate = q.1 ∧ s.initAnswer = q.2) := by
  intro p hp q hq
  refine ⟨{ at0 (polling p) with gate := q.1, env := { Env.reset with initAnswers := [q.2] } }, polling p, ?_⟩
  revert p q; decide +kernel

theorem test_witness_GateAcquireResult_waits :
    Meets (fun s _ => s.gate.held = true ∧ s.gate.owner ≠ BitVec.ofNat 8 s.cur)
      ∧ Meets (fun s c => s.gate.held = false ∧ c.poll.rxs = .gateWait) :=
  ⟨⟨{ at0 Ctx.reset with gate := heldBy 1 }, Ctx.reset, by decide +kernel⟩,
    ⟨{ at0 (polling .gateWait) with gate := idleGate }, polling .gateWait, by decide +kernel⟩⟩

theorem test_witness_DecodingEmptyOrBadFrame :
    Meets (fun s c => c.memOk = true ∧ s.ring.ok = true ∧ c.poll.rxs = .decoding ∧ s.ring.unread = []
        ∧ c.poll.deadline.toNat ≤ s.now.toNat)
      ∧ Meets (fun s c => c.memOk = true ∧ s.ring.ok = true ∧ c.poll.rxs = .decoding ∧ s.ring.unread = [] ∧ c.poll.zero = false
        ∧ s.now.toNat < c.poll.deadline.toNat)
      ∧ Meets (fun s c => c.memOk = true ∧ s.ring.ok = true ∧ c.poll.rxs = .decoding
        ∧ s.ring.unread = slotOf (bytes (fv.set 9 0x93)) 7 :: []
        ∧ (decodeFrame s.cfg.cryptKey (slotOf (bytes (fv.set 9 0x93)) 7).bytes
            (slotOf (bytes (fv.set 9 0x93)) 7).len.toNat matches .crcMismatch _) = true)
      ∧ Meets (fun s c => c.memOk = true ∧ s.ring.ok = true ∧ c.poll.rxs = .decoding
        ∧ s.ring.unread = slotOf (bytes (f0.take 10)) 7 :: []
        ∧ decodeFrame s.cfg.cryptKey (slotOf (bytes (f0.take 10)) 7).bytes
            (slotOf (bytes (f0.take 10)) 7).len.toNat = .frameLen) :=
  ⟨⟨{ at0 (polling .decoding) with now := 10 }, polling .decoding, by decide +kernel⟩,
    ⟨{ at0 (polling .decoding) with now := 9 }, polling .decoding, by decide +kernel⟩,
    ⟨{ at0 (polling .decoding) with ring := ringOf (fv.set 9 0x93) }, polling .decoding, by decide +kernel⟩,
    ⟨{ at0 (polling .decoding) with ring := ringOf (f0.take 10) }, polling .decoding, by decide +kernel⟩⟩

/-- What a frame decodes to, where it is valid. -/
def frameOf (f : List Nat) : DecodedFrame :=
  match decodeFrame 242 (buf f) f.length with
  | .ok d => d
  | _ => { l := 0, mfr := 0, prod := 0, pip := 0, devid := 0, crc := 0, recs := [], plain := [] }

/-- A context in DECODING with one frame in the ring. -/
def decodingWith (f : List Nat) (ds : List Dev) (a p : BitVec 16) : State :=
  { at0 (polling .decoding) with ring := ringOf f, devs := ds, cntActive := a, cntPrecached := p }

theorem test_witness_DecodingAcceptsKnownDevice : ∀ q ∈ [true, false], Meets (fun s c => ∃ f, c.memOk = true ∧ s.ring.ok = true
    ∧ s.registryOk = true ∧ s.countersOk = true ∧ c.poll.rxs = .decoding ∧ s.ring.unread = slotOf (bytes fv) 7 :: []
    ∧ decodeFrame s.cfg.cryptKey (slotOf (bytes fv) 7).bytes (slotOf (bytes fv) 7).len.toNat = .ok f
    ∧ s.devs[0]? = some (valve 0xA3 3 q false) ∧ (valve 0xA3 3 q false).devid = f.devid
    ∧ q = ((valve 0xA3 3 q false).cc.pending
        && (!(valve 0xA3 3 q false).wakeGated || f.recs.any (fun r => r.pid == s.cfg.paramWakeup)))) := by
  intro q hq
  refine ⟨decodingWith fv [valve 0xA3 3 q false] 0 (if q then 1 else 0), polling .decoding, ?_, frameOf fv, ?_, ?_, ?_, ?_, ?_, ?_,
    ?_, ?_, ?_, ?_⟩ <;> (revert q; decide +kernel)

theorem test_witness_DecodingNewDevice : ∀ n ∈ [3, 4], Meets (fun s c => ∃ f, c.memOk = true ∧ s.ring.ok = true
    ∧ c.poll.rxs = .decoding ∧ s.ring.unread = slotOf (bytes fv) 7 :: []
    ∧ decodeFrame s.cfg.cryptKey (slotOf (bytes fv) 7).bytes (slotOf (bytes fv) 7).len.toNat = .ok f
    ∧ (∀ dev ∈ s.devs, dev.devid ≠ f.devid) ∧ s.devs.length = n ∧ s.cfg.devMax = 4) := by
  intro n hn
  refine ⟨decodingWith fv (([plain 1, plain 2, plain 3, plain 4] : List Dev).take n) 0 0, polling .decoding, ?_, frameOf fv, ?_, ?_, ?_, ?_,
    ?_, ?_, ?_, ?_⟩ <;> (revert n; decide +kernel)

/-- The machine that the whole-machine statements are read on: EX with an entry whose command is outstanding, a poll of context 0
with the gate, and an input. -/
def busyMachine (i : Input) : State :=
  { at0 { polling .draining with poll := { (polling .draining).poll with owned := true } } with
    gate := heldBy 0, devs := [valve 0xA3 3 true false], cntPrecached := 1, events := [.initCall true, .setMode ⟨0, 0⟩],
    env := { Env.reset with inputs := [i], waitAnswers := [false] } }

/-- It meets every invariant, and answers a next state to the step of a poll, to the advance of time, and to a command of the other
context. -/
theorem test_witness_invariants : ∀ i ∈ [Input.proceed 0, .tick 5, .command 1 0x30, .reset],
    ((busyMachine i).banksOk && (busyMachine i).ring.ok && (busyMachine i).registryFits && (busyMachine i).registryOk
        && (busyMachine i).countersOk && (busyMachine i).contextsOk && (busyMachine i).gateOk && (busyMachine i).pollsOk
        && (busyMachine i).portOk) = true
      ∧ (nextOf (step (busyMachine i))).isSome = true := by decide +kernel

theorem test_witness_ContextIsolation : (busyMachine (.command 1 0x30)).nextInput ≠ .reset
    ∧ inputContext (busyMachine (.command 1 0x30)).nextInput ≠ some 0
    ∧ (busyMachine (.tick 5)).cur < (busyMachine (.tick 5)).ctxs.length
    ∧ (nextOf (exec .trySend (busyMachine (.tick 5)))).isSome = true := by decide +kernel

theorem test_witness_GateExclusive : (busyMachine (.command 1 0x30)).gate.held = true
    ∧ inputContext (busyMachine (.command 1 0x30)).nextInput = some 1
    ∧ (nextOf (step (busyMachine (.proceed 0)))).isSome = true ∧ (busyMachine (.proceed 0)).gate.held = true := by decide +kernel

/-- The holder of the gate writes TRY_SEND to CMD. -/
def sending : State :=
  { fed (query 0x1234 0) [.command 0 0x24] with gate := heldBy 0, devs := [valve 0xA3 3 true false], cntPrecached := 1 }

theorem test_witness_RetriesNeverIncrease : sending.nextInput = .command 0 0x24 ∧ sending.devs[0]? = some (valve 0xA3 3 true false)
    ∧ (nextOf (step sending)).map (fun t => t.devs.map (fun e => (e.cc.pending, e.cc.retries))) = some [(true, 2#8)] := by
  decide +kernel

end Sys2Proof.Tests
end

section
/-! SUPPORT. Which configurations the block comes up for (00_scope.md R7, R8). A `Config` is well formed by construction, so the key
fact is that the checks invert the reading of a checked value as numbers: `check` answers `c` exactly on `c.toRaw`. -/

namespace Sys2Proof

open Machine

/-! ## Checked values as the numbers they were given as -/

/-- A row of `CMD_TABLE` as numbers. -/
def CmdRow.toRaw (q : CmdRow) : RawCmdRow :=
  { id := q.id.toNat, pid := q.pid.toNat, type := (intTypeCode q.type).toNat, len := q.len.toNat }

/-- A row of `PRODUCT_TABLE` as its parts. -/
def ProductRow.toRaw (q : ProductRow) : RawProductRow :=
  { prod := q.prod, cls := kindClass q.kind, ext := kindExt q.kind, wakeGated := q.wakeGated }

/-- A configuration as the parameters of 00_scope.md R7. -/
def Config.toRaw (c : Config) : RawConfig :=
  { cryptKey := c.cryptKey, mfrDefault := c.mfrDefault, devMax := c.devMax, agents := c.agents,
    cmdTable := c.cmdTable.map CmdRow.toRaw, productTable := c.productTable.map ProductRow.toRaw, ackTable := c.ackTable,
    noEchoCmds := c.noEchoCmds, paramWakeup := c.paramWakeup.toNat, cmdThermMode := c.cmdThermMode.toNat,
    modeGateway := c.modeGateway, telemetryPeriod := c.telemetryPeriod, autoRetries := c.autoRetries.toNat,
    txRepeat := c.txRepeat, sleepShort := c.sleepShort, sleepLong := c.sleepLong, timeUnit := c.timeUnit,
    defaultMode := c.defaultMode, busMap := c.busMap }

@[simp] theorem CmdRow.id_toNat (q : CmdRow) : q.id.toNat = q.idLess1.val + 1 := by
  simp only [CmdRow.id, BitVec.toNat_ofNat]; omega

@[simp] theorem CmdRow.pid_toNat (q : CmdRow) : q.pid.toNat = q.pidLess1.val + 1 := by
  simp only [CmdRow.pid, BitVec.toNat_ofNat]; omega

@[simp] theorem Config.paramWakeup_toNat (c : Config) : c.paramWakeup.toNat = c.paramWakeupLess1.val + 1 := by
  simp only [Config.paramWakeup, BitVec.toNat_ofNat]; omega

@[simp] theorem Config.cmdThermMode_toNat (c : Config) : c.cmdThermMode.toNat = c.cmdThermModeLess1.val + 1 := by
  simp only [Config.cmdThermMode, BitVec.toNat_ofNat]; omega

@[simp] theorem Config.autoRetries_toNat (c : Config) : c.autoRetries.toNat = c.autoRetriesLess1.val + 1 := by
  simp only [Config.autoRetries, BitVec.toNat_ofNat]; omega

/-! ## What each check accepts -/

theorem lessOne_eq_ok_iff {n v : Nat} {e : ConfigError} {i : Fin n} : lessOne n e v = .ok i ↔ i.val + 1 = v := by
  have := i.isLt
  unfold lessOne
  split
  · simp only [Except.ok.injEq, Fin.ext_iff]; omega
  · simp only [reduceCtorEq, false_iff]; omega

theorem IntType.ofCode_eq_ok_iff {k : Nat} {t : IntType} : IntType.ofCode k = .ok t ↔ (intTypeCode t).toNat = k := by
  constructor
  · intro h
    unfold IntType.ofCode at h
    split at h <;> cases h <;> rfl
  · rintro rfl
    cases t <;> rfl

theorem RawCmdRow.check_eq_ok_iff {r : RawCmdRow} {q : CmdRow} : r.check = .ok q ↔ q.toRaw = r := by
  constructor
  · intro h
    unfold RawCmdRow.check at h
    split at h
    case h_4 i p t hi hp ht =>
      rw [lessOne_eq_ok_iff] at hi hp
      rw [IntType.ofCode_eq_ok_iff] at ht
      split at h
      case isTrue hlen =>
        cases h
        have hmod : r.len % 16 = r.len := by omega
        simp [CmdRow.toRaw, hi, hp, ht, hmod]
      case isFalse => cases h
    all_goals cases h
  · rintro rfl
    have hid : lessOne 255 .commandId q.toRaw.id = .ok q.idLess1 := lessOne_eq_ok_iff.2 q.id_toNat.symm
    have hpid : lessOne 127 .paramId q.toRaw.pid = .ok q.pidLess1 := lessOne_eq_ok_iff.2 q.pid_toNat.symm
    have htype : IntType.ofCode q.toRaw.type = .ok q.type := IntType.ofCode_eq_ok_iff.2 rfl
    have hlen : q.toRaw.len ≤ 15 := Nat.le_of_lt_succ q.len.isLt
    simp only [RawCmdRow.check, hid, hpid, htype, if_pos hlen]
    simp [CmdRow.toRaw]

theorem RawProductRow.check_eq_ok_iff {r : RawProductRow} {q : ProductRow} : r.check = .ok q ↔ q.toRaw = r := by
  constructor
  · obtain ⟨prod, cls, ext, wakeGated⟩ := r
    intro h
    cases ext with
    | none => cases h; rfl
    | valve | thermostat =>
      cases cls with
      | smallWindow => cases h; rfl
      | none | always => cases h
  · rintro rfl
    obtain ⟨prod, kind, wakeGated⟩ := q
    cases kind <;> rfl

/-- If `f` inverts `g`, checking a list by `f` inverts mapping it by `g`. -/
theorem checkRows_eq_ok_iff {α β : Type} {f : α → Except ConfigError β} {g : β → α} (hfg : ∀ a b, f a = .ok b ↔ g b = a)
    (as : List α) (bs : List β) : checkRows f as = .ok bs ↔ bs.map g = as := by
  induction as generalizing bs with
  | nil => cases bs <;> simp [checkRows]
  | cons a as ih =>
    constructor
    · intro h
      unfold checkRows at h
      split at h
      case h_1 => cases h
      case h_2 b hb =>
        split at h
        case h_1 => cases h
        case h_2 cs hcs =>
          cases h
          rw [List.map_cons, (hfg a b).1 hb, (ih cs).1 hcs]
    · intro h
      obtain ⟨b, cs, rfl, hb, hcs⟩ := List.map_eq_cons_iff.1 h
      simp only [checkRows, (hfg a b).2 hb, (ih cs).2 hcs]

theorem checkRows_cmdRow_eq_ok_iff (rs : List RawCmdRow) (qs : List CmdRow) :
    checkRows RawCmdRow.check rs = .ok qs ↔ qs.map CmdRow.toRaw = rs :=
  checkRows_eq_ok_iff (fun _ _ => RawCmdRow.check_eq_ok_iff) rs qs

theorem checkRows_productRow_eq_ok_iff (rs : List RawProductRow) (qs : List ProductRow) :
    checkRows RawProductRow.check rs = .ok qs ↔ qs.map ProductRow.toRaw = rs :=
  checkRows_eq_ok_iff (fun _ _ => RawProductRow.check_eq_ok_iff) rs qs

theorem bind_eq_ok_iff {ε α β : Type} {x : Except ε α} {f : α → Except ε β} {b : β} :
    (x >>= f) = .ok b ↔ ∃ a, x = .ok a ∧ f a = .ok b := by
  cases x <;> simp [bind, Except.bind]

theorem RawConfig.check_eq_ok_iff {r : RawConfig} {c : Config} : r.check = .ok c ↔ c.toRaw = r := by
  simp only [RawConfig.check, bind_eq_ok_iff, lessOne_eq_ok_iff, checkRows_cmdRow_eq_ok_iff, checkRows_productRow_eq_ok_iff]
  constructor
  · rintro ⟨devMax, hdev, agents, hagents, cmds, hcmds, prods, hprods, wake, hwake, therm, htherm, auto, hauto, h⟩
    split at h
    case isTrue hsleep =>
      cases h
      obtain ⟨hshort, hlong⟩ := hsleep
      simp [Config.toRaw, Config.devMax, Config.agents, Config.sleepShort, Config.sleepLong, *]
    case isFalse => cases h
  · rintro rfl
    refine ⟨_, rfl, _, rfl, _, rfl, _, rfl, _, c.paramWakeup_toNat.symm, _, c.cmdThermMode_toNat.symm, _,
      c.autoRetries_toNat.symm, ?_⟩
    simp [Config.toRaw, Config.sleepShort, Config.sleepLong]

/-! ## The ranges of R7 and R8 -/

/-- The ranges of a row of `CMD_TABLE` (00_scope.md R8). -/
def RawCmdRow.WellFormed (q : RawCmdRow) : Prop :=
  (1 ≤ q.id ∧ q.id ≤ 255) ∧ (1 ≤ q.pid ∧ q.pid ≤ 127) ∧ (q.type ≤ 6 ∨ (8 ≤ q.type ∧ q.type ≤ 11)) ∧ q.len ≤ 15

/-- Only a product of class SmallWindow has an extension (00_scope.md R8). -/
def RawProductRow.WellFormed (q : RawProductRow) : Prop := q.ext ≠ .none → q.cls = .smallWindow

/-- The ranges of the parameters (00_scope.md R7, R8). -/
def RawConfig.WellFormed (r : RawConfig) : Prop :=
  (1 ≤ r.devMax ∧ r.devMax ≤ 65535) ∧ (1 ≤ r.agents ∧ r.agents ≤ 255)
    ∧ (∀ q ∈ r.cmdTable, q.WellFormed) ∧ (∀ q ∈ r.productTable, q.WellFormed)
    ∧ (1 ≤ r.paramWakeup ∧ r.paramWakeup ≤ 127) ∧ (1 ≤ r.cmdThermMode ∧ r.cmdThermMode ≤ 255)
    ∧ (1 ≤ r.autoRetries ∧ r.autoRetries ≤ 255) ∧ 1 ≤ r.sleepShort ∧ 1 ≤ r.sleepLong

theorem exists_fin_add_one_eq_iff {n v : Nat} : (∃ i : Fin n, i.val + 1 = v) ↔ 1 ≤ v ∧ v ≤ n := by
  constructor
  · rintro ⟨i, rfl⟩
    omega
  · intro ⟨hpos, hle⟩
    exact ⟨⟨v - 1, by omega⟩, Nat.sub_add_cancel hpos⟩

theorem exists_intTypeCode_eq_iff {k : Nat} :
    (∃ t, (intTypeCode t).toNat = k) ↔ k ≤ 6 ∨ (8 ≤ k ∧ k ≤ 11) := by
  constructor
  · rintro ⟨t, rfl⟩
    cases t <;> decide
  · rintro (hle | ⟨hge, hle⟩) <;> interval_cases k
    all_goals exact ⟨_, IntType.ofCode_eq_ok_iff.1 rfl⟩

theorem CmdRow.exists_toRaw_eq_iff {r : RawCmdRow} : (∃ q : CmdRow, q.toRaw = r) ↔ r.WellFormed := by
  rw [RawCmdRow.WellFormed, ← exists_fin_add_one_eq_iff, ← exists_fin_add_one_eq_iff, ← exists_intTypeCode_eq_iff]
  constructor
  · rintro ⟨q, rfl⟩
    exact ⟨⟨_, q.id_toNat.symm⟩, ⟨_, q.pid_toNat.symm⟩, ⟨_, rfl⟩, Nat.le_of_lt_succ q.len.isLt⟩
  · rintro ⟨⟨i, hi⟩, ⟨p, hp⟩, ⟨t, ht⟩, hlen⟩
    have hmod : r.len % 16 = r.len := by omega
    exact ⟨⟨i, p, t, BitVec.ofNat 4 r.len⟩, by simp [CmdRow.toRaw, hi, hp, ht, hmod]⟩

theorem ProductRow.exists_toRaw_eq_iff {r : RawProductRow} : (∃ q : ProductRow, q.toRaw = r) ↔ r.WellFormed := by
  constructor
  · rintro ⟨⟨_, kind, _⟩, rfl⟩ hext
    cases kind with
    | plain => exact absurd rfl hext
    | valve | thermostat => rfl
  · obtain ⟨prod, cls, ext, wakeGated⟩ := r
    intro hcls
    cases ext with
    | none => exact ⟨⟨prod, .plain cls, wakeGated⟩, rfl⟩
    | valve =>
      obtain rfl : cls = .smallWindow := hcls nofun
      exact ⟨⟨prod, .valve, wakeGated⟩, rfl⟩
    | thermostat =>
      obtain rfl : cls = .smallWindow := hcls nofun
      exact ⟨⟨prod, .thermostat, wakeGated⟩, rfl⟩

/-- A list is the image of a list when every element is an image. -/
theorem exists_map_eq_iff {α β : Type} {g : β → α} {p : α → Prop} (hg : ∀ {a}, (∃ b, g b = a) ↔ p a) (as : List α) :
    (∃ bs : List β, bs.map g = as) ↔ ∀ a ∈ as, p a := by
  simp only [← hg]
  exact Set.ext_iff.1 (Set.range_list_map g) as

theorem Config.exists_toRaw_eq_iff {r : RawConfig} : (∃ c : Config, c.toRaw = r) ↔ r.WellFormed := by
  simp only [RawConfig.WellFormed, ← exists_fin_add_one_eq_iff, ← exists_map_eq_iff CmdRow.exists_toRaw_eq_iff,
    ← exists_map_eq_iff ProductRow.exists_toRaw_eq_iff]
  constructor
  · rintro ⟨c, rfl⟩
    exact ⟨⟨_, rfl⟩, ⟨_, rfl⟩, ⟨_, rfl⟩, ⟨_, rfl⟩, ⟨_, c.paramWakeup_toNat.symm⟩, ⟨_, c.cmdThermMode_toNat.symm⟩,
      ⟨_, c.autoRetries_toNat.symm⟩, Nat.le_add_left .., Nat.le_add_left ..⟩
  · rintro ⟨⟨devMax, hdev⟩, ⟨agents, hagents⟩, ⟨cmds, hcmds⟩, ⟨prods, hprods⟩, ⟨wake, hwake⟩, ⟨therm, htherm⟩, ⟨auto, hauto⟩,
      hshort, hlong⟩
    suffices ∃ c, r.check = .ok c from this.imp fun _ => RawConfig.check_eq_ok_iff.1
    simp only [RawConfig.check, lessOne_eq_ok_iff.2 hdev, lessOne_eq_ok_iff.2 hagents, (checkRows_cmdRow_eq_ok_iff _ _).2 hcmds,
      (checkRows_productRow_eq_ok_iff _ _).2 hprods, lessOne_eq_ok_iff.2 hwake, lessOne_eq_ok_iff.2 htherm,
      lessOne_eq_ok_iff.2 hauto]
    exact ⟨_, if_pos ⟨hshort, hlong⟩⟩

/-! ## Boot -/

theorem boot_eq_next_iff {r : RawConfig} {s : State} : boot r = .next s ↔ ∃ c : Config, c.toRaw = r ∧ State.resetWith c = s := by
  simp only [← RawConfig.check_eq_ok_iff]
  unfold boot
  cases r.check <;> simp

theorem exists_boot_eq_next_iff (r : RawConfig) : (∃ s, boot r = .next s) ↔ r.WellFormed := by
  rw [← Config.exists_toRaw_eq_iff]
  constructor
  · rintro ⟨s, hs⟩
    obtain ⟨c, hc, -⟩ := boot_eq_next_iff.1 hs
    exact ⟨c, hc⟩
  · rintro ⟨c, hc⟩
    exact ⟨_, boot_eq_next_iff.2 ⟨c, hc, rfl⟩⟩

/-- Settles O8: the accepted configurations are the `c.toRaw`, whose parameters are those of `c`. -/
theorem bootAcceptsWellFormed : Obligations.BootAcceptsWellFormed := by
  intro r
  refine ⟨exists_boot_eq_next_iff r, fun s hs => ?_⟩
  obtain ⟨c, rfl, rfl⟩ := boot_eq_next_iff.1 hs
  refine ⟨rfl, rfl, rfl, rfl, rfl, rfl, rfl, rfl, rfl, rfl, rfl, rfl, rfl, rfl, rfl, rfl, rfl, rfl, ?_, ?_⟩
  · simp [State.resetWith, Config.toRaw, CmdRow.toRaw]
  · simp [State.resetWith, Config.toRaw, ProductRow.toRaw]

end Sys2Proof
end

section
/-! SUPPORT. What an operation of the issuing context can do to the state, as a chain of single updates (`State.Work`). Each operation
ends one such chain by writing STATUS or the poll state, so a fact about the steps of the machine is proved once for each update. -/

namespace Sys2Proof.Machine

/-! ## Shape of a bank -/

theorem Ctx.memOk_iff {c : Ctx} :
    c.memOk = true ↔ (Memory.wf recMax c.recBuf = true ∧ Memory.wf frameMax c.txBuf = true ∧ Memory.wf frameMax c.rxBuf = true
      ∧ Memory.wf frameMax c.plainBuf = true)
      ∧ c.dec.recs.length = 28 ∧ c.dec.nrec.toNat ≤ 28 ∧ ∀ r ∈ c.dec.recs, r.raw.length = 15 := by
  simp [Ctx.memOk, and_assoc]

theorem Ctx.buf_wf {c : Ctx} (h : c.memOk = true) (b : BitVec 2) : Memory.wf (bufSize b) (c.buf b) = true := by
  obtain ⟨⟨hrec, htx, hrx, hplain⟩, -⟩ := Ctx.memOk_iff.1 h
  unfold bufSize Ctx.buf
  split_ifs <;> assumption

/-- The bank `d` is `c` after a write of an operation at work: in shape if `c` is, with the poll state and BUSY of `c`. -/
structure Ctx.Keeps (c d : Ctx) : Prop where
  memOk : c.memOk = true → d.memOk = true
  poll : d.poll = c.poll
  busy : d.busy = c.busy

theorem Ctx.setBuf_keeps {c : Ctx} {b : BitVec 2} {m : Memory} (hm : c.memOk = true → Memory.wf (bufSize b) m = true) :
    c.Keeps (c.setBuf b m) := by
  unfold Ctx.setBuf
  split_ifs with h0 h1 h2
  all_goals
    refine ⟨fun h => ?_, rfl, rfl⟩
    obtain ⟨⟨hrec, htx, hrx, hplain⟩, hdec⟩ := Ctx.memOk_iff.1 h
    have hwf := hm h
    simp only [bufSize, h0, if_true, if_false] at hwf
  · exact Ctx.memOk_iff.2 ⟨⟨hwf, htx, hrx, hplain⟩, hdec⟩
  · exact Ctx.memOk_iff.2 ⟨⟨hrec, hwf, hrx, hplain⟩, hdec⟩
  · exact Ctx.memOk_iff.2 ⟨⟨hrec, htx, hwf, hplain⟩, hdec⟩
  · exact Ctx.memOk_iff.2 ⟨⟨hrec, htx, hrx, hwf⟩, hdec⟩

theorem Ctx.takeSlot_keeps (c : Ctx) (e : Slot) : c.Keeps (c.takeSlot e) := by
  have hwf : Memory.wf frameMax c.rxBuf = true →
      Memory.wf frameMax (Memory.writeRange c.rxBuf 0 (Memory.readRange e.bytes 0 frameMax)) = true :=
    Memory.wf_writeRange _ (by simp)
  unfold Ctx.takeSlot
  generalize Memory.writeRange c.rxBuf 0 (Memory.readRange e.bytes 0 frameMax) = m at hwf ⊢
  refine ⟨fun h => ?_, rfl, rfl⟩
  obtain ⟨⟨hrec, htx, hrx, hplain⟩, hdec⟩ := Ctx.memOk_iff.1 h
  exact Ctx.memOk_iff.2 ⟨⟨hrec, htx, hwf hrx, hplain⟩, hdec⟩

/-! ## Shape of a decode -/

/-- What a decode hands to the decode registers fits into them (10_state.md R18): at most 67 bytes, 28 records, 15 bytes in each. -/
def DecodeResult.InShape : DecodeResult → Prop
  | .frameLen => True
  | .crcMismatch p => p.length ≤ frameMax
  | .ok f => f.plain.length ≤ frameMax ∧ f.recs.length ≤ 28 ∧ ∀ r ∈ f.recs, r.raw.length = 15

theorem recordAt_raw_length (p : List Byte) (i : Nat) : (recordAt p i).raw.length = 15 := by
  have hlen := ((p.getD (i + 1) 0).extractLsb' 0 4).isLt
  simp only [recordAt, List.length_append, List.length_map, List.length_range, List.length_replicate]
  omega

/-- A record takes at least two bytes of the plaintext (42_frame_decoder.md R97). -/
theorem two_mul_parseRecords_length_le (p : List Byte) (stop : Nat) :
    ∀ fuel i, 2 * (parseRecords p stop fuel i).length ≤ stop - i := by
  intro fuel
  induction fuel with
  | zero => intro i; simp [parseRecords]
  | succ fuel ih =>
    intro i
    simp only [parseRecords]
    split_ifs
    case neg =>
      have hrest := ih (i + 2 + ((p.getD (i + 1) 0).extractLsb' 0 4).toNat)
      simp only [List.length_cons]
      omega
    all_goals simp

theorem parseRecords_raw_length (p : List Byte) (stop : Nat) :
    ∀ fuel i, ∀ r ∈ parseRecords p stop fuel i, r.raw.length = 15 := by
  intro fuel
  induction fuel with
  | zero => intro i; simp [parseRecords]
  | succ fuel ih =>
    intro i
    simp only [parseRecords]
    split_ifs
    case neg => exact List.forall_mem_cons.2 ⟨recordAt_raw_length p i, ih _⟩
    all_goals simp

theorem framePlaintext_length (key : Byte) (b : Memory) (l : Nat) : (framePlaintext key b l).length = l - 6 + 7 := by
  simp only [framePlaintext, List.length_append, Memory.readRange_length, crypt_length]
  omega

theorem decodeFrame_inShape (key : Byte) (b : Memory) (n : Nat) : (decodeFrame key b n).InShape := by
  unfold decodeFrame
  extract_lets l p rx
  split_ifs with hlen
  · trivial
  all_goals
    have hp : p.length ≤ 67 := by
      rw [framePlaintext_length]
      omega
  · exact hp
  · refine ⟨hp, ?_, parseRecords_raw_length p _ _ _⟩
    have hrecs := two_mul_parseRecords_length_le p (l - 1) (l - 1 - 8) 8
    show (parseRecords p (l - 1) (l - 1 - 8) 8).length ≤ 28
    omega

theorem Ctx.writeDecode_keeps (c : Ctx) {d : DecodeResult} (hd : d.InShape) : c.Keeps (c.writeDecode d) := by
  cases d with
  | frameLen => exact ⟨id, rfl, rfl⟩
  | crcMismatch p =>
    refine ⟨fun h => ?_, rfl, rfl⟩
    obtain ⟨⟨hrec, htx, hrx, hplain⟩, hdec⟩ := Ctx.memOk_iff.1 h
    exact Ctx.memOk_iff.2 ⟨⟨hrec, htx, hrx, Memory.wf_writeRange p ((Nat.zero_add _).trans_le hd) hplain⟩, hdec⟩
  | ok f =>
    obtain ⟨hp, hlen, hraw⟩ := hd
    refine ⟨fun h => ?_, rfl, rfl⟩
    obtain ⟨⟨hrec, htx, hrx, hplain⟩, hold, -, holdraw⟩ := Ctx.memOk_iff.1 h
    refine Ctx.memOk_iff.2 ⟨⟨hrec, htx, hrx, Memory.wf_writeRange f.plain ((Nat.zero_add _).trans_le hp) hplain⟩, ?_, ?_, ?_⟩
    · simp only [Ctx.writeDecode, decOutOf, List.length_append, List.length_drop]
      omega
    · simp only [Ctx.writeDecode, decOutOf, BitVec.toNat_ofNat]
      omega
    · intro r hr
      rcases List.mem_append.1 hr with hr | hr
      · exact hraw r hr
      · exact holdraw r (List.mem_of_mem_drop hr)

/-! ## The updates -/

/-- One update by an operation at work for the issuing context. It leaves CODE and BUSY, which `finish` writes, and the poll state. -/
inductive State.Work (s : State) : State → Prop
  | bank {c : Ctx} (h : s.ctx.Keeps c) : Work s (s.setCtx c)
  | ring {r : Ring} (h : s.ring.ok = true → r.ok = true) : Work s (s.setRing r)
  | draw (q : Env) : Work s { s with env := q }
  | log (es : List PortEvent) : Work s { s with events := s.events ++ es }
  | fatal : Work s s.setFatal
  /-- the gate goes to the issuing context only from free (45_radio_gate.md R146). -/
  | grant (h : s.gate.held = false) : Work s s.grantGate
  /-- only the holder frees the gate (45_radio_gate.md R148, R149). -/
  | release (init : Bool) (h : s.holdsGate = true) : Work s (s.setGate { s.gate with init := init, held := false })
  | create {d : BitVec 24} (m p : Byte) (j n : Bool) (t : BitVec 64) (hnew : s.lookup d = none)
      (hroom : s.devs.length ≠ s.cfg.devMax) : Work s { s with devs := s.devs ++ [newDev s.cfg d m p j n t] }
  | clear {k : Nat} (hout : ((s.dev k).hasCc && (s.dev k).cc.pending) = true) :
      Work s { s with devs := s.devs.set k (clearedDev (s.dev k)),
                      cntActive := if (s.dev k).cc.active then s.cntActive - 1 else s.cntActive,
                      cntPrecached := if (s.dev k).cc.active then s.cntPrecached else s.cntPrecached - 1 }
  | attach {k : Nat} (cmd : Byte) (d : BitVec 32) (n : Byte) {f : List Byte} (hcc : (s.dev k).hasCc = true)
      (hmin : 11 ≤ f.length) (hmax : f.length ≤ frameMax) : Work s (s.attachCmd k cmd d n f)
  | send {k : Nat} (hout : ((s.dev k).hasCc && (s.dev k).cc.pending) = true) : Work s (s.sendOnce k)
  | seen (k : Nat) : Work s (s.markSeen k)
  | thermostat (k : Nat) (th : Thermostat) : Work s (s.setDev k { s.dev k with th := th })

/-- A chain of such updates. -/
abbrev State.Works : State → State → Prop := Relation.ReflTransGen State.Work

theorem State.Works.refl (s : State) : s.Works s := Relation.ReflTransGen.refl

theorem State.Work.works {s t : State} (h : s.Work t) : s.Works t := Relation.ReflTransGen.single h

theorem State.Works.tail {s t u : State} (h : s.Works t) (hu : t.Work u) : s.Works u := Relation.ReflTransGen.tail h hu

/-- A write of the bank. Left out, `hc` is that of a write of result registers alone. -/
theorem State.Works.bank {s t : State} (h : s.Works t) {c : Ctx} (hc : t.ctx.Keeps c := by exact ⟨id, rfl, rfl⟩) :
    s.Works (t.setCtx c) :=
  h.tail (.bank hc)

theorem State.Work.cfg_cur_length {s t : State} (h : s.Work t) :
    t.cfg = s.cfg ∧ t.cur = s.cur ∧ t.ctxs.length = s.ctxs.length := by
  cases h with
  | bank h => exact ⟨rfl, rfl, by simp⟩
  | _ => exact ⟨rfl, rfl, rfl⟩

/-- No bank but the issuing one changes, and it keeps its poll state and BUSY. -/
theorem State.Work.ctxs {s t : State} (h : s.Work t) : t.ctxs = s.ctxs ∨ ∃ c, s.ctx.Keeps c ∧ t = s.setCtx c := by
  cases h with
  | bank h => exact .inr ⟨_, h, rfl⟩
  | _ => exact .inl rfl

theorem State.Work.poll_busy {s t : State} (hcur : s.cur < s.ctxs.length) (h : s.Work t) :
    t.ctx.poll = s.ctx.poll ∧ t.ctx.busy = s.ctx.busy := by
  rcases h.ctxs with hctxs | ⟨c, hc, rfl⟩
  · rw [State.ctx_congr hctxs h.cfg_cur_length.2.1]
    exact ⟨rfl, rfl⟩
  · rw [State.setCtx_ctx_of_lt hcur]
    exact ⟨hc.poll, hc.busy⟩

theorem State.Works.cur_lt {s t : State} (hcur : s.cur < s.ctxs.length) (h : s.Works t) : t.cur < t.ctxs.length := by
  induction h with
  | refl => exact hcur
  | tail _ h ih =>
    obtain ⟨-, hc, hl⟩ := h.cfg_cur_length
    rwa [hc, hl]

theorem State.Works.cur_eq {s t : State} (h : s.Works t) : t.cur = s.cur := by
  induction h with
  | refl => rfl
  | tail _ h ih => rw [h.cfg_cur_length.2.1, ih]

theorem State.Works.poll_busy {s t : State} (hcur : s.cur < s.ctxs.length) (h : s.Works t) :
    t.ctx.poll = s.ctx.poll ∧ t.ctx.busy = s.ctx.busy := by
  induction h with
  | refl => exact ⟨rfl, rfl⟩
  | tail hs h ih =>
    obtain ⟨hp, hb⟩ := h.poll_busy (State.Works.cur_lt hcur hs)
    exact ⟨hp.trans ih.1, hb.trans ih.2⟩

/-! ## The shared operations as chains -/

theorem State.Works.devReport {s t : State} (h : s.Works t) (k : Nat) : s.Works (t.devReport k) := h.bank

theorem State.Works.devReportNone {s t : State} (h : s.Works t) : s.Works t.devReportNone := h.bank

theorem State.Works.setPost {s t : State} (h : s.Works t) (p : PostReport) : s.Works (t.setPost p) := h.bank

theorem State.Works.afterNonce {s t : State} (h : s.Works t) : s.Works t.afterNonce := h.tail (.draw _)

theorem State.Works.drain {s t : State} (h : s.Works t) : s.Works t.drain := by
  obtain ⟨r, es, q, hd, hr⟩ := t.drain_frame
  rw [hd]
  exact ((h.tail (.ring hr)).tail (.log es)).tail (.draw q)

theorem State.Works.clearCmd {s t : State} (h : s.Works t) (k : Nat) : s.Works (t.clearCmd k) := by
  cases hout : ((t.dev k).hasCc && (t.dev k).cc.pending) with
  | true =>
    rw [State.clearCmd_out rfl hout]
    exact h.tail (.clear hout)
  | false => rwa [State.clearCmd_idle hout]

theorem State.Works.encRecord {s t u : State} (h : s.Works t) {cmd : Byte} {d : BitVec 32} {bs : List Byte}
    (he : t.encRecord cmd d = some (bs, u)) : s.Works u := by
  obtain ⟨q, rfl⟩ := State.encRecord_frame he
  exact h.tail (.draw q)

/-- A record is at most 17 bytes long (41_frame_encoder.md R87). -/
theorem State.encRecord_length_le {s t : State} {cmd : Byte} {d : BitVec 32} {bs : List Byte}
    (h : s.encRecord cmd d = some (bs, t)) : bs.length ≤ 17 := by
  rcases s.encRecord_cases cmd d with ⟨-, hnone⟩ | ⟨r, v, u, -, hv, hsome⟩
  · rw [hnone] at h
    cases h
  · rw [hsome] at h
    cases h
    have hlen := r.len.isLt
    simp only [List.length_append, recordHeader, List.length_cons, List.length_nil, hv.length]
    omega

/-- The frame of a command fits into a frame buffer (44_retry_sequencer.md R127). -/
theorem State.Works.attachFrame {s t : State} (h : s.Works t) {k : Nat} (cmd : Byte) (d : BitVec 32) (n : Byte) {rec : List Byte}
    (hrec : rec.length ≤ 17) (key m p : Byte) (devid : BitVec 24) (pip : BitVec 16) (hcc : (t.dev k).hasCc = true) :
    s.Works (t.attachCmd k cmd d n (frameBytes key m p devid rec pip)) := by
  have hlen := frameBytes_length key m p devid rec pip
  exact h.tail (.attach cmd d n hcc (by omega) (by unfold frameMax; omega))

theorem State.Works.getOrCreate {s t u : State} (h : s.Works t) {d : BitVec 24} {m p : Byte} {j n : Bool} {ts : BitVec 64}
    {k : Nat} {created : Bool} (hg : t.getOrCreate d m p j n ts = some (k, created, u)) : s.Works u := by
  rcases t.getOrCreate_cases d m p j n ts with ⟨_, -, hk⟩ | ⟨-, -, hk⟩ | ⟨hnew, hroom, hk⟩
  all_goals
    rw [hk] at hg
    cases hg
  · exact h
  · exact h.tail (.create m p j n ts hnew hroom)

theorem State.gate_free {s : State} (hother : s.otherHolds = false) (hown : s.holdsGate = false) : s.gate.held = false := by
  rw [State.otherHolds] at hother
  rw [State.holdsGate] at hown
  cases h : s.gate.held with
  | false => rfl
  | true =>
    rw [h, Bool.true_and] at hother hown
    rw [hown] at hother
    cases hother

/-- The gate is taken only from free: the caller makes sure that no other context holds it (45_radio_gate.md R146). -/
theorem State.Works.gateTake {s : State} (h : s.otherHolds = false) : s.Works s.gateTake.2 := by
  rcases s.gateTake_cases with ⟨-, ht⟩ | ⟨hn, -, ht⟩ | ⟨hn, -, -, ht⟩ | ⟨-, -, -, ht⟩
  · rw [ht]
  · rw [ht]
    exact (State.Work.grant (State.gate_free h hn)).works
  · rw [ht]
    have hinit : s.Works s.afterInit := (State.Work.log _).works.tail (.draw _)
    exact (hinit.tail (.log [.setMode s.cfg.defaultMode])).tail (.grant (State.gate_free h hn))
  · rw [ht]
    exact (State.Work.log _).works.tail (.draw _)

theorem State.Works.sendCached {s t : State} (h : s.Works t) (k : Nat) : s.Works (t.sendCached k).2 := by
  unfold State.sendCached
  simp only
  split_ifs with hout
  · exact h.clearCmd k
  · exact (h.tail (.send hout)).clearCmd k
  · exact h.tail (.send hout)
  · exact h

/-- `if t = TAKEN: G.G_HELD <- 0` frees a gate that the step itself holds (44_retry_sequencer.md R138, R141). -/
theorem State.Works.putBack {s t : State} (h : s.Works t) {k : Taken} (hk : k = .taken → t.holdsGate = true) :
    s.Works (t.putBack k) := by
  unfold State.putBack
  split_ifs with ht
  · exact h.tail (.release t.gate.init (hk ht))
  · exact h

theorem State.Works.thermostatAck {s t : State} (h : s.Works t) (k : Nat) (other : Bool) (ts : BitVec 64) :
    s.Works (t.thermostatAck k other ts) := by
  unfold State.thermostatAck
  simp only
  split_ifs
  · exact ((h.tail (.thermostat k _)).clearCmd k).setPost _
  · exact h.tail (.thermostat k _)
  · exact h

theorem State.Works.valveAck {s t : State} (h : s.Works t) (k : Nat) (recs : List DecRec) : s.Works (t.valveAck k recs) := by
  unfold State.valveAck
  simp only
  split_ifs
  · exact (h.clearCmd k).setPost _
  · exact h

theorem State.Works.autoTelemetry {s t : State} (h : s.Works t) (k : Nat) (wake : Bool) (ts : BitVec 64) :
    s.Works (t.autoTelemetry k wake ts) := by
  unfold State.autoTelemetry
  simp only
  split_ifs with hdue
  · split
    · exact h
    · rename_i r u hr
      have hcc : (t.dev k).hasCc = true := by
        simp only [autoDue, Bool.and_eq_true] at hdue
        exact hdue.1.1.1.1.1.2
      obtain ⟨q, rfl⟩ := State.encRecord_frame hr
      exact ((h.encRecord hr).afterNonce.attachFrame _ _ _ (State.encRecord_length_le hr) _ _ _ _ _ hcc).setPost _
  · exact h

theorem State.Works.postProcess {s t : State} (h : s.Works t) (k : Nat) (recs : List DecRec) (ts : BitVec 64) :
    s.Works (t.postProcess k recs ts) := by
  unfold State.postProcess
  simp only
  have hpost := h.setPost { PostReport.reset with hasWake := hasPid recs t.cfg.paramWakeup }
  refine State.Works.devReport ?_ k
  split
  · exact (hpost.thermostatAck k _ ts).autoTelemetry k _ ts
  · exact hpost.valveAck k recs
  · exact hpost

end Sys2Proof.Machine
end

section
/-! SUPPORT. Each operation, and each step of a waiting context, as a chain of updates and its end. -/

namespace Sys2Proof.Machine

/-! ## The operations of one step -/

/-- `t` is `s` after an operation of one step: a chain of updates, then `finish` or `raise`. -/
def State.Finishes (s t : State) : Prop := ∃ u e, s.Works u ∧ t = u.finish e

theorem State.Works.finish {s u : State} (h : s.Works u) (e : Code) : s.Finishes (u.finish e) := ⟨u, e, h, rfl⟩

theorem State.Works.raise {s u : State} (h : s.Works u) (e : Code) : s.Finishes (u.raise e) := ⟨u, e, h, rfl⟩

/-- `o` answers a next state in which the operation that `s` performs is done. -/
def State.FinishesIn (s : State) (o : Host.Outcome State Fault Refusal) : Prop := ∃ t, o = .next t ∧ s.Finishes t

theorem State.Finishes.next {s t : State} (h : s.Finishes t) : s.FinishesIn (.next t) := ⟨t, rfl, h⟩

theorem execNop_finishes (s : State) : s.FinishesIn (execNop s) := ((State.Works.refl s).finish .ok).next

theorem execCrc16_finishes (s : State) : s.FinishesIn (execCrc16 s) := by
  refine State.Finishes.next ?_
  split_ifs
  · exact (State.Works.refl s).raise _
  · exact (State.Works.refl s).bank.finish _

theorem execCipher_finishes (s : State) : s.FinishesIn (execCipher s) := by
  refine State.Finishes.next ?_
  split_ifs with hrange
  · exact (State.Works.refl s).raise _
  · refine ((State.Works.refl s).bank (Ctx.setBuf_keeps fun h => Memory.wf_writeRange _ ?_ (Ctx.buf_wf h _))).finish _
    simpa [Ctx.rangeBytes, rangePastEnd] using hrange

theorem execEncRecord_finishes (s : State) : s.FinishesIn (execEncRecord s) := by
  refine State.Finishes.next ?_
  split_ifs
  · exact (State.Works.refl s).raise _
  · split
    · exact (State.Works.refl s).raise _
    · rename_i bs u hbs
      have hu := (State.Works.refl s).encRecord hbs
      simp only
      split_ifs with hroom
      · exact hu.raise _
      · refine (hu.bank ?_).finish _
        refine ⟨fun h => ?_, rfl, rfl⟩
        obtain ⟨⟨hrec, htx, hrx, hplain⟩, hdec⟩ := Ctx.memOk_iff.1 h
        exact Ctx.memOk_iff.2 ⟨⟨Memory.wf_writeRange bs (not_lt.1 hroom) hrec, htx, hrx, hplain⟩, hdec⟩

theorem execBuildFrame_finishes (s : State) : s.FinishesIn (execBuildFrame s) := by
  refine State.Finishes.next ?_
  split_ifs with hlen
  · exact (State.Works.refl s).raise _
  · refine ((State.Works.refl s).afterNonce.bank ?_).finish _
    refine ⟨fun h => ?_, rfl, rfl⟩
    obtain ⟨⟨hrec, htx, hrx, hplain⟩, hdec⟩ := Ctx.memOk_iff.1 h
    refine Ctx.memOk_iff.2 ⟨⟨hrec, Memory.wf_writeRange _ ?_ htx, hrx, hplain⟩, hdec⟩
    rw [frameBytes_length, Memory.readRange_length, State.afterNonce_ctx]
    unfold recMax at hlen
    unfold frameMax
    omega

theorem execDecodeFrame_finishes (s : State) : s.FinishesIn (execDecodeFrame s) := by
  refine State.Finishes.next ?_
  split_ifs
  · exact (State.Works.refl s).raise _
  · exact ((State.Works.refl s).bank (Ctx.writeDecode_keeps _ (decodeFrame_inShape _ _ _))).finish _

theorem execTxFrame_finishes (s : State) : s.FinishesIn (execTxFrame s) := by
  refine State.Finishes.next ?_
  split_ifs
  · exact (State.Works.refl s).raise _
  · exact (State.Work.log _).works.finish _
  · exact (State.Works.refl s).raise _

theorem execRbPush_finishes (s : State) : s.FinishesIn (execRbPush s) := by
  refine State.Finishes.next ?_
  split_ifs with hlen
  · exact (State.Works.refl s).raise _
  · refine (State.Work.ring fun h => (Ring.push_spec h ?_).1).works.finish _
    rw [Memory.readRange_length]
    exact not_lt.1 hlen

theorem Ring.pop_ok {r r' : Ring} {e : Slot} (hpop : r.pop = some (e, r')) (h : r.ok = true) : r'.ok = true := by
  cases hu : r.unread with
  | nil =>
    have hcount : r.count = 0 := Fin.ext (by rw [← Ring.unread_length, hu]; rfl)
    rw [Ring.pop, if_pos hcount] at hpop
    cases hpop
  | cons d rest =>
    obtain ⟨r'', hpop', hok, -⟩ := Ring.pop_spec h hu
    rw [hpop'] at hpop
    cases hpop
    exact hok

theorem execRbPop_finishes (s : State) : s.FinishesIn (execRbPop s) := by
  refine State.Finishes.next ?_
  split
  · exact (State.Works.refl s).raise _
  · rename_i e r hpop
    exact ((State.Work.ring (Ring.pop_ok hpop)).works.bank (Ctx.takeSlot_keeps _ e)).finish _

theorem execRbPeek_finishes (s : State) : s.FinishesIn (execRbPeek s) := by
  refine State.Finishes.next ?_
  split
  · exact (State.Works.refl s).raise _
  · exact ((State.Works.refl s).bank (Ctx.takeSlot_keeps _ _)).finish _

theorem execRbDrain_finishes (s : State) : s.FinishesIn (execRbDrain s) := by
  refine State.Finishes.next ?_
  split_ifs
  · exact (State.Works.refl s).drain.finish _
  · exact (State.Works.refl s).raise _

theorem execDevCreate_finishes (s : State) : s.FinishesIn (execDevCreate s) := by
  refine State.Finishes.next ?_
  simp only
  split
  · exact State.Work.fatal.works.raise _
  · rename_i k created u hg
    exact ((((State.Works.refl s).getOrCreate hg).bank).devReport k).finish _

theorem execDevQuery_finishes (s : State) : s.FinishesIn (execDevQuery s) := by
  refine State.Finishes.next ?_
  split
  · exact (State.Works.refl s).devReportNone.raise _
  · exact ((State.Works.refl s).devReport _).finish _

theorem execDevList_finishes (s : State) : s.FinishesIn (execDevList s) := by
  refine State.Finishes.next ?_
  split_ifs
  · exact (State.Works.refl s).devReportNone.raise _
  · exact ((State.Works.refl s).devReport _).finish _

/-- CACHE_CMD stores a command on an entry that can hold one (44_retry_sequencer.md R128). -/
theorem State.Works.cacheRecord {s t : State} (h : s.Works t) {k : Nat} (created : Bool) {rec : List Byte}
    (hrec : rec.length ≤ 17) (hcc : (t.dev k).hasCc = true) : s.Finishes (t.cacheRecord k created rec) := by
  have hattach := h.afterNonce.attachFrame t.ctx.args.cmd t.ctx.args.data t.ctx.args.retries hrec
    t.cfg.cryptKey (t.dev k).mfr (t.dev k).prod t.ctx.args.devid t.nonce hcc
  exact ((hattach.bank).devReport k).finish .ok

/-- The entry that CACHE_CMD creates can hold a command, as its product has class SmallWindow (44_retry_sequencer.md R121). -/
theorem State.getOrCreate_hasCc {s u : State} {d : BitVec 24} {m p : Byte} {j n : Bool} {ts : BitVec 64} {k : Nat}
    {created : Bool} (hnew : s.lookup d = none) (hcls : (productInfo s.cfg p).cls = .smallWindow)
    (hg : s.getOrCreate d m p j n ts = some (k, created, u)) : (u.dev k).hasCc = true := by
  rcases s.getOrCreate_cases d m p j n ts with ⟨_, hold, -⟩ | ⟨-, -, hk⟩ | ⟨-, -, hk⟩
  · rw [hnew] at hold
    cases hold
  · rw [hk] at hg
    cases hg
  · rw [hk] at hg
    cases hg
    rw [State.dev_of (List.getElem?_concat_length ..)]
    simp [newDev, hcls]

theorem State.cacheUnknown_finishes {s : State} (hnew : s.lookup s.ctx.args.devid = none) : s.Finishes s.cacheUnknown := by
  unfold State.cacheUnknown
  simp only
  split_ifs with hcmd hcls
  · exact (State.Works.refl s).raise _
  · split
    · exact (State.Works.refl s).raise _
    · rename_i bs u hbs
      have hu := (State.Works.refl s).encRecord hbs
      split
      · exact (hu.tail .fatal).raise _
      · rename_i k created v hg
        refine (hu.getOrCreate hg).cacheRecord true (State.encRecord_length_le hbs) ?_
        obtain ⟨q, rfl⟩ := State.encRecord_frame hbs
        exact State.getOrCreate_hasCc (s := { s with env := q }) hnew hcls hg
  · exact (State.Works.refl s).raise _

theorem State.cacheKnown_finishes (s : State) (k : Nat) : s.Finishes (s.cacheKnown k) := by
  unfold State.cacheKnown
  simp only
  split_ifs with hcmd hcc
  · exact ((((State.Works.refl s).clearCmd k).bank).devReport k).finish _
  · split
    · exact (State.Works.refl s).raise _
    · rename_i bs u hbs
      refine ((State.Works.refl s).encRecord hbs).cacheRecord false (State.encRecord_length_le hbs) ?_
      obtain ⟨q, rfl⟩ := State.encRecord_frame hbs
      exact hcc
  · exact (State.Works.refl s).raise _

theorem execCacheCmd_finishes (s : State) : s.FinishesIn (execCacheCmd s) := by
  refine State.Finishes.next ?_
  split
  · rename_i hnew
    exact State.cacheUnknown_finishes hnew
  · exact s.cacheKnown_finishes _

theorem execTrySend_finishes (s : State) : s.FinishesIn (execTrySend s) := by
  refine State.Finishes.next ?_
  split_ifs
  · split
    · have hsent : s.Works (s.setCtx { s.ctx with rSent := false }) := (State.Works.refl s).bank
      exact hsent.devReportNone.raise _
    · rename_i k hk
      have hsend := (State.Works.refl s).sendCached k
      generalize s.sendCached k = r at hsend ⊢
      obtain ⟨sent, u⟩ := r
      exact (hsend.bank.devReport k).finish _
  · exact (State.Works.refl s).raise _

theorem execPostProcess_finishes (s : State) : s.FinishesIn (execPostProcess s) := by
  refine State.Finishes.next ?_
  split_ifs
  · split
    · exact (State.Works.refl s).devReportNone.raise _
    · exact ((State.Works.refl s).postProcess _ _ _).finish _
  · exact (State.Works.refl s).raise _

theorem execGateRelease_finishes (s : State) : s.FinishesIn (execGateRelease s) := by
  refine State.Finishes.next ?_
  split_ifs with hown
  · exact (State.Work.release s.gate.init hown).works.finish _
  · exact (State.Works.refl s).raise _

theorem execShutdown_finishes (s : State) : s.FinishesIn (execShutdown s) := by
  refine State.Finishes.next ?_
  split_ifs with hown
  · have hlog : s.Works (s.logEvent .shutdown) := (State.Work.log [.shutdown]).works
    exact (hlog.tail (.release false hown)).finish _
  · exact (State.Works.refl s).raise _

/-- Every operation but the two multi-step ones is done in its one step (60_exceptions.md R159). -/
theorem exec_finishes {i : Instr} (s : State) (hgate : i ≠ .gateAcquire) (hpoll : i ≠ .rxPoll) : s.FinishesIn (exec i s) := by
  cases i with
  | nop => exact execNop_finishes s
  | crc16 => exact execCrc16_finishes s
  | cipher => exact execCipher_finishes s
  | encRecord => exact execEncRecord_finishes s
  | buildFrame => exact execBuildFrame_finishes s
  | decodeFrame => exact execDecodeFrame_finishes s
  | txFrame => exact execTxFrame_finishes s
  | rbPush => exact execRbPush_finishes s
  | rbPop => exact execRbPop_finishes s
  | rbPeek => exact execRbPeek_finishes s
  | rbDrain => exact execRbDrain_finishes s
  | devCreate => exact execDevCreate_finishes s
  | devQuery => exact execDevQuery_finishes s
  | devList => exact execDevList_finishes s
  | cacheCmd => exact execCacheCmd_finishes s
  | trySend => exact execTrySend_finishes s
  | postProcess => exact execPostProcess_finishes s
  | rxPoll => exact absurd rfl hpoll
  | gateAcquire => exact absurd rfl hgate
  | gateRelease => exact execGateRelease_finishes s
  | shutdown => exact execShutdown_finishes s

end Sys2Proof.Machine
end

section
/-! SUPPORT. The two multi-step operations and the steps of a waiting context, and what one step of the machine can do. -/

namespace Sys2Proof.Machine

/-! ## Taking the gate -/

theorem State.otherHolds_of_free {s : State} (h : s.gate.held = false) : s.otherHolds = false := by
  rw [State.otherHolds, h, Bool.false_and]

theorem State.acquireFree_finishes {s : State} (h : s.gate.held = false) : s.Finishes s.acquireFree := by
  unfold State.acquireFree
  have htake := State.Works.gateTake (State.otherHolds_of_free h)
  split
  all_goals
    rename_i heq
    rw [heq] at htake
  · exact htake.raise _
  · exact htake.bank.finish _

theorem State.gateTake_of_holdsGate {s : State} (h : s.holdsGate = true) : s.gateTake = (.already, s) := by
  rw [State.gateTake, if_pos h]

/-- A context that takes the gate then holds it. -/
theorem State.holdsGate_of_taken {s u : State} (h : s.gateTake = (.taken, u)) : u.holdsGate = true := by
  have hgrant : ∀ v : State, v.grantGate.holdsGate = true := fun v => State.holdsGate_iff.2 ⟨rfl, rfl⟩
  rcases s.gateTake_cases with ⟨-, ht⟩ | ⟨-, -, ht⟩ | ⟨-, -, -, ht⟩ | ⟨-, -, -, ht⟩
  all_goals
    rw [ht] at h
    cases h
  · exact hgrant s
  · exact hgrant _

theorem State.holdsGate_congr {s t : State} (hgate : t.gate = s.gate) (hcur : t.cur = s.cur) : t.holdsGate = s.holdsGate := by
  rw [State.holdsGate, State.holdsGate, hgate, hcur]

theorem State.drain_gate (s : State) : s.drain.gate = s.gate := by
  obtain ⟨r, es, q, hd, -⟩ := s.drain_frame
  rw [hd]

theorem State.sendCached_gate (s : State) (k : Nat) : (s.sendCached k).2.gate = s.gate := by
  obtain ⟨ds, a, p, es, hsend, -⟩ := s.sendCached_frame k
  rw [hsend]

/-! ## The steps of a receive poll -/

/-- `p` is a poll state that a poll in progress can go on with in the state `u` (44_retry_sequencer.md R138, R139, R142). -/
structure State.GoesOn (u : State) (p : Poll) : Prop where
  polling : p.rxs.polling = true
  owned : p.owned = u.ctx.poll.owned
  idle : p.rxs = .idle → p.wake.toNat ≤ p.deadline.toNat ∧ p.zero = false
  inject : p.rxs = .inject → u.ctx.dec.valid = true ∧ ∃ k < u.devs.length, p.dev = BitVec.ofNat 16 k

/-- A step of a poll in progress (44_retry_sequencer.md R137 to R142): the context holds, or the poll is done, or it goes on and has
not lost the gate. -/
inductive State.PollStep (s : State) : State → Prop
  | hold : PollStep s s
  | done {u : State} (h : s.Works u) (e : Code) : PollStep s (u.endPoll e)
  | goOn {u : State} {p : Poll} (h : s.Works u) (hown : s.holdsGate = true → u.gate = s.gate) (hp : u.GoesOn p) :
      PollStep s (u.setCtx { u.ctx with poll := p })

theorem State.drainingStep_pollStep {s : State} (h : s.otherHolds = false) : s.PollStep s.drainingStep := by
  unfold State.drainingStep
  have htake := State.Works.gateTake h
  split
  · rename_i u heq
    rw [heq] at htake
    exact .done htake _
  · rename_i t u hfail heq
    rw [heq] at htake
    have hput : s.Works (u.drain.putBack t) := htake.drain.putBack fun ht => by
      subst ht
      rw [State.holdsGate_congr u.drain_gate (State.Works.refl u).drain.cur_eq]
      exact State.holdsGate_of_taken heq
    refine .goOn hput (fun hown => ?_) ⟨rfl, rfl, nofun, nofun⟩
    rw [State.gateTake_of_holdsGate hown] at heq
    cases heq
    exact s.drain_gate

theorem State.injectStep_pollStep {s : State} (h : s.otherHolds = false) : s.PollStep s.injectStep := by
  unfold State.injectStep
  have htake := State.Works.gateTake h
  split
  · rename_i u heq
    rw [heq] at htake
    exact .done htake _
  · rename_i t u hfail heq
    rw [heq] at htake
    have hsend := htake.sendCached u.ctx.poll.dev.toNat
    have hgate := u.sendCached_gate u.ctx.poll.dev.toNat
    have hcur := ((State.Works.refl u).sendCached u.ctx.poll.dev.toNat).cur_eq
    simp only
    generalize u.sendCached u.ctx.poll.dev.toNat = r at hsend hgate hcur ⊢
    obtain ⟨sent, v⟩ := r
    have hsent : s.Works (v.setCtx { v.ctx with rSent := sent }) := hsend.bank
    refine .done ((hsent.putBack fun ht => ?_).postProcess _ _ _) _
    subst ht
    have hown : v.holdsGate = u.holdsGate := State.holdsGate_congr hgate hcur
    exact hown.trans (State.holdsGate_of_taken heq)

theorem State.decodeEmpty_pollStep (s : State) : s.PollStep s.decodeEmpty := by
  unfold State.decodeEmpty
  simp only
  split
  · exact .done (.refl s) _
  · rename_i hlate
    refine .goOn (.refl s) (fun _ => rfl) ⟨rfl, rfl, fun _ => ⟨?_, ?_⟩, nofun⟩
    · simp only [BitVec.toNat_ofNat]
      exact (Nat.mod_le _ _).trans (min_le_right _ _)
    · simpa using (not_or.1 hlate).1

theorem State.getOrCreate_index {s u : State} {d : BitVec 24} {m p : Byte} {j n : Bool} {ts : BitVec 64} {k : Nat}
    {created : Bool} (hg : s.getOrCreate d m p j n ts = some (k, created, u)) :
    k < u.devs.length ∧ u.gate = s.gate ∧ u.ctx = s.ctx := by
  rcases s.getOrCreate_cases d m p j n ts with ⟨k', hold, hk⟩ | ⟨-, -, hk⟩ | ⟨-, -, hk⟩
  all_goals
    rw [hk] at hg
    cases hg
  · obtain ⟨e, he, -⟩ := State.lookup_some hold
    exact ⟨(List.getElem?_eq_some_iff.1 he).1, rfl, rfl⟩
  · exact ⟨by simp, rfl, rfl⟩

theorem State.decodeValid_pollStep {s t : State} (hcur : t.cur < t.ctxs.length) (h : s.Works t) (hgate : t.gate = s.gate)
    (hvalid : t.ctx.dec.valid = true) (f : DecodedFrame) (ts : BitVec 64) : s.PollStep (t.decodeValid f ts) := by
  unfold State.decodeValid
  split
  · exact .done (h.tail .fatal) _
  · rename_i k created u hg
    obtain ⟨hk, hgate', hctx⟩ := State.getOrCreate_index hg
    have hu : s.Works u := h.getOrCreate hg
    have hcur' : u.cur < u.ctxs.length := ((State.Works.refl t).getOrCreate hg).cur_lt hcur
    have hseen : s.Works ((u.markSeen k).setCtx { (u.markSeen k).ctx with rCreated := created }) := (hu.tail (.seen k)).bank
    simp only
    split_ifs
    · refine .goOn hseen (fun _ => hgate'.trans hgate) ⟨rfl, rfl, nofun, fun _ => ⟨?_, k, ?_, rfl⟩⟩
      · rw [State.setCtx_ctx_of_lt (s := u.markSeen k) hcur', State.markSeen, State.setDev_ctx, hctx]
        exact hvalid
      · simpa [State.markSeen] using hk
    · exact .done (hseen.postProcess _ _ _) _

theorem State.decodingStep_pollStep {s : State} (hcur : s.cur < s.ctxs.length) (hrxs : s.ctx.poll.rxs = .decoding) :
    s.PollStep s.decodingStep := by
  unfold State.decodingStep
  split
  · exact s.decodeEmpty_pollStep
  · rename_i e r hpop
    extract_lets c d t
    have hc : s.ctx.Keeps c := Ctx.takeSlot_keeps _ _
    have hshape : d.InShape := decodeFrame_inShape _ _ _
    clear_value d
    have hd : c.Keeps (c.writeDecode d) := Ctx.writeDecode_keeps c hshape
    have hkeeps : s.ctx.Keeps (c.writeDecode d) := ⟨hd.memOk ∘ hc.memOk, hd.poll.trans hc.poll, hd.busy.trans hc.busy⟩
    have ht : s.Works t := (State.Work.ring (Ring.pop_ok hpop)).works.bank hkeeps
    have hcur' : t.cur < t.ctxs.length := ht.cur_lt hcur
    have hctx : t.ctx = c.writeDecode d := State.setCtx_ctx_of_lt (s := s.setRing r) hcur _
    have hdrop : s.PollStep t := by
      have hpoll : t.ctx.poll = s.ctx.poll := (ht.poll_busy hcur).1
      have hgo : s.PollStep (t.setCtx { t.ctx with poll := t.ctx.poll }) :=
        .goOn ht (fun _ => rfl) (by rw [hpoll]; exact ⟨by rw [hrxs]; rfl, by rw [hpoll], by simp [hrxs], by simp [hrxs]⟩)
      rwa [show t.setCtx { t.ctx with poll := t.ctx.poll } = t from State.setCtx_self hcur'] at hgo
    split
    · exact hdrop
    · exact hdrop
    · exact State.decodeValid_pollStep hcur' ht rfl (by rw [hctx]; rfl) _ _

/-- A poll in progress takes a step of the receive pipeline (60_exceptions.md R159). -/
theorem State.proceed_pollStep {s : State} (hcur : s.cur < s.ctxs.length) (h : s.ctx.poll.rxs.polling = true) :
    s.PollStep s.proceed := by
  unfold State.proceed
  cases hrxs : s.ctx.poll.rxs with
  | off | gateWait =>
    rw [hrxs] at h
    cases h
  | draining =>
    simp only
    split_ifs with hother
    · exact .hold
    · exact State.drainingStep_pollStep (by simpa using hother)
  | decoding => exact State.decodingStep_pollStep hcur hrxs
  | inject =>
    simp only
    split_ifs with hother
    · exact .hold
    · exact State.injectStep_pollStep (by simpa using hother)
  | idle =>
    simp only
    split_ifs
    · exact .goOn (.refl s) (fun _ => rfl) ⟨rfl, rfl, nofun, nofun⟩
    · exact .hold

/-- A wait for the gate holds, or ends the wait and the operation (45_radio_gate.md R147). -/
theorem State.proceed_gateWait {s : State} (h : s.ctx.poll.rxs = .gateWait) :
    s.proceed = s ∨ (s.setRxs .off).Finishes s.proceed := by
  unfold State.proceed
  rw [h]
  simp only
  split_ifs with hheld
  · exact .inl rfl
  · exact .inr (State.acquireFree_finishes (s := s.setRxs .off) (Bool.eq_false_iff.2 hheld))

/-! ## What a step can do -/

/-- One update of a step: one by an operation at work, or a write of the bank, its STATUS and poll state included. -/
inductive State.Edit (s : State) : State → Prop
  | work {t : State} (h : s.Work t) : Edit s t
  | bank {c : Ctx} (h : s.ctx.memOk = true → c.memOk = true) : Edit s (s.setCtx c)

/-- A chain of such updates. -/
abbrev State.Edits : State → State → Prop := Relation.ReflTransGen State.Edit

theorem State.Works.edits {s t : State} (h : s.Works t) : s.Edits t :=
  Relation.ReflTransGen.mono (fun _ _ => State.Edit.work) s t h

theorem State.Edits.bank {s t : State} (h : s.Edits t) {c : Ctx} (hc : t.ctx.memOk = true → c.memOk = true := by exact id) :
    s.Edits (t.setCtx c) :=
  Relation.ReflTransGen.tail h (.bank hc)

theorem State.Edits.trans {s t u : State} (h : s.Edits t) (h' : t.Edits u) : s.Edits u := Relation.ReflTransGen.trans h h'

theorem State.Finishes.edits {s t : State} (h : s.Finishes t) : s.Edits t := by
  obtain ⟨u, e, hu, rfl⟩ := h
  exact hu.edits.bank

theorem State.PollStep.edits {s t : State} (h : s.PollStep t) : s.Edits t := by
  cases h with
  | hold => exact .refl
  | done h e => exact h.edits.bank.bank
  | goOn h hown hp => exact h.edits.bank

theorem State.proceed_edits {s : State} (hcur : s.cur < s.ctxs.length) : s.Edits s.proceed := by
  cases hpoll : s.ctx.poll.rxs.polling with
  | true => exact (State.proceed_pollStep hcur hpoll).edits
  | false =>
    cases hrxs : s.ctx.poll.rxs with
    | off =>
      rw [show s.proceed = s by rw [State.proceed, hrxs]]
    | gateWait =>
      have hoff : s.Edits (s.setRxs .off) := State.Edits.bank .refl
      rcases State.proceed_gateWait hrxs with hhold | hdone
      · rw [hhold]
      · exact hoff.trans hdone.edits
    | draining | decoding | inject | idle =>
      rw [hrxs] at hpoll
      cases hpoll

/-- GATE_ACQUIRE is done in its one step, or waits (45_radio_gate.md R147). -/
theorem execGateAcquire_cases (s : State) :
    s.FinishesIn (execGateAcquire s)
      ∨ execGateAcquire s = .next (s.setCtx { s.ctx with busy := true, poll := { s.ctx.poll with rxs := .gateWait } }) := by
  unfold execGateAcquire
  split_ifs with hown hheld
  · exact .inl ((State.Works.refl s).bank.finish .ok).next
  · exact .inr rfl
  · exact .inl (State.acquireFree_finishes (by simpa using hheld)).next

theorem exec_edits {i : Instr} {s t : State} (h : exec i s = .next t) : s.Edits t := by
  have hfin : s.FinishesIn (exec i s) → s.Edits t := by
    rintro ⟨u, hu, hdone⟩
    rw [h] at hu
    cases hu
    exact hdone.edits
  by_cases hgate : i = .gateAcquire
  · subst hgate
    rcases execGateAcquire_cases s with hdone | hwait
    · exact hfin hdone
    · cases h.symm.trans hwait
      exact State.Edits.bank .refl
  · by_cases hpoll : i = .rxPoll
    · subst hpoll
      cases h
      exact State.Edits.bank .refl
    · exact hfin (exec_finishes s hgate hpoll)

/-- The state in which the operation of a command word begins (30_encoding.md R55). -/
def State.begun (s : State) : State := s.setCtx { s.ctx with busy := true }

/-- What a command can do (30_encoding.md R55, R57). -/
theorem State.command_next {s t : State} {c : Nat} {w : Word} (h : s.command c w = .next t) :
    c < s.ctxs.length ∧ (s.select c).ctx.busy = false
      ∧ (t = (s.select c).begun.illegal ∨ ∃ i, exec i (s.select c).begun = .next t) := by
  unfold State.command State.beginCommand State.hasCtx at h
  split_ifs at h with hc hbusy
  refine ⟨of_decide_eq_true hc, by simpa using hbusy, ?_⟩
  simp only at h
  split at h
  · exact .inr ⟨_, h⟩
  · cases h
    exact .inl rfl

theorem State.proceedAs_next {s t : State} {c : Nat} (h : s.proceedAs c = .next t) :
    c < s.ctxs.length ∧ t = (s.select c).proceed := by
  unfold State.proceedAs State.hasCtx at h
  split_ifs at h with hc
  cases h
  exact ⟨of_decide_eq_true hc, rfl⟩

theorem State.hostWrite_next {s t : State} {c : Nat} {w : HostWrite} (h : s.hostWrite c w = .next t) :
    c < s.ctxs.length ∧ ∃ b, (s.select c).ctx.hostWrite w = some b ∧ t = (s.select c).setCtx b := by
  unfold State.hostWrite State.hasCtx at h
  split_ifs at h with hc
  split at h
  · rename_i b hb
    cases h
    exact ⟨of_decide_eq_true hc, b, hb, rfl⟩
  · cases h

/-- A host write stores in the arguments, the lengths and the buffers (10_state.md R21). -/
theorem Ctx.hostWrite_keeps {c b : Ctx} {w : HostWrite} (h : c.hostWrite w = some b) : c.Keeps b ∧ b.dec = c.dec := by
  cases w with
  | recByte i v | txByte i v | rxByte i v =>
    simp only [Ctx.hostWrite] at h
    split_ifs at h with hi
    cases h
    refine ⟨⟨fun hok => ?_, rfl, rfl⟩, rfl⟩
    obtain ⟨⟨hrec, htx, hrx, hplain⟩, hdec⟩ := Ctx.memOk_iff.1 hok
    exact Ctx.memOk_iff.2 ⟨by simp [Memory.wf_write hi, hrec, htx, hrx, hplain], hdec⟩
  | _ =>
    cases h
    exact ⟨⟨id, rfl, rfl⟩, rfl⟩

/-- An input of a context is a chain of updates for that context. -/
theorem State.take_edits {s t : State} {i : Input} {c : Nat} (hi : inputContext i = some c) (h : s.take i = .next t) :
    c < s.ctxs.length ∧ (s.select c).Edits t := by
  cases i with
  | hostWrite n w =>
    cases hi
    obtain ⟨hc, b, hb, rfl⟩ := State.hostWrite_next h
    exact ⟨hc, State.Edits.bank .refl (Ctx.hostWrite_keeps hb).1.memOk⟩
  | command n w =>
    cases hi
    obtain ⟨hc, -, hrun⟩ := State.command_next h
    have hbegin : (s.select c).Edits (s.select c).begun := State.Edits.bank .refl
    refine ⟨hc, ?_⟩
    rcases hrun with rfl | ⟨i, hexec⟩
    · exact hbegin.bank
    · exact hbegin.trans (exec_edits hexec)
  | proceed n =>
    cases hi
    obtain ⟨hc, rfl⟩ := State.proceedAs_next h
    exact ⟨hc, State.proceed_edits hc⟩
  | tick | reset => cases hi

/-- What one step of the machine can do (20_memory.md R44 to R46). -/
theorem step_cases {s t : State} (h : step s = .next t) :
    (s.nextInput = .reset ∧ t = s.afterInput.platformReset)
      ∨ (∃ d, s.nextInput = .tick d ∧ t = s.afterInput.tick d)
      ∨ ∃ c, inputContext s.nextInput = some c ∧ c < s.ctxs.length ∧ (s.afterInput.select c).Edits t := by
  unfold step at h
  cases hi : s.nextInput with
  | reset =>
    rw [hi] at h
    cases h
    exact .inl ⟨rfl, rfl⟩
  | tick d =>
    rw [hi] at h
    cases h
    exact .inr (.inl ⟨d, rfl, rfl⟩)
  | hostWrite c _ | command c _ | proceed c =>
    rw [hi] at h
    exact .inr (.inr ⟨c, rfl, State.take_edits rfl h⟩)

end Sys2Proof.Machine
end

section
/-! SUPPORT. What the updates of a step keep: the banks of other contexts, the shape of the banks and of the ring, the registry and
its counters, and what no step undoes. -/

namespace Sys2Proof.Machine

/-- What holds of the first state of a chain and is kept by each update holds of the last. -/
theorem State.Edits.keep {P : State → Prop} (hP : ∀ {s t : State}, s.Edit t → P s → P t) {s t : State} (h : s.Edits t)
    (hs : P s) : P t := by
  induction h with
  | refl => exact hs
  | tail _ h ih => exact hP h ih

/-! ## Banks and ring -/

/-- A write of the issuing bank is all that an update does to the banks. -/
theorem State.Edit.ctxs {s t : State} (h : s.Edit t) :
    t.ctxs = s.ctxs ∨ ∃ c, (s.ctx.memOk = true → c.memOk = true) ∧ t = s.setCtx c := by
  cases h with
  | work h => exact h.ctxs.imp_right fun ⟨c, hc, ht⟩ => ⟨c, hc.memOk, ht⟩
  | bank h => exact .inr ⟨_, h, rfl⟩

theorem State.Edit.cfg_cur_length {s t : State} (h : s.Edit t) :
    t.cfg = s.cfg ∧ t.cur = s.cur ∧ t.ctxs.length = s.ctxs.length := by
  cases h with
  | work h => exact h.cfg_cur_length
  | bank h => exact ⟨rfl, rfl, by simp⟩

theorem State.Edits.cfg_cur_length {s t : State} (h : s.Edits t) :
    t.cfg = s.cfg ∧ t.cur = s.cur ∧ t.ctxs.length = s.ctxs.length :=
  h.keep (P := fun u => u.cfg = s.cfg ∧ u.cur = s.cur ∧ u.ctxs.length = s.ctxs.length)
    (fun hu ⟨hcfg, hcur, hlen⟩ =>
      have ⟨hcfg', hcur', hlen'⟩ := hu.cfg_cur_length
      ⟨hcfg'.trans hcfg, hcur'.trans hcur, hlen'.trans hlen⟩)
    ⟨rfl, rfl, rfl⟩

theorem State.Edit.other_bank {s t : State} (h : s.Edit t) {n : Nat} (hn : n ≠ s.cur) : t.ctxs[n]? = s.ctxs[n]? := by
  rcases h.ctxs with hctxs | ⟨c, -, rfl⟩
  · rw [hctxs]
  · exact List.getElem?_set_ne hn.symm

/-- A chain of updates changes no bank but the issuing one (10_state.md R14). -/
theorem State.Edits.other_bank {s t : State} (h : s.Edits t) {n : Nat} (hn : n ≠ s.cur) : t.ctxs[n]? = s.ctxs[n]? := by
  induction h with
  | refl => rfl
  | tail hs h ih => rw [h.other_bank (by rwa [(State.Edits.cfg_cur_length hs).2.1]), ih]

theorem Ctx.reset_memOk : Ctx.reset.memOk = true := by decide

theorem State.banksOk_iff {s : State} : s.banksOk = true ↔ ∀ c ∈ s.ctxs, c.memOk = true := List.all_eq_true

theorem State.ctx_memOk {s : State} (h : s.banksOk = true) : s.ctx.memOk = true := by
  by_cases hcur : s.cur < s.ctxs.length
  · exact State.banksOk_iff.1 h _ (List.mem_of_getElem? (State.ctx_get hcur))
  · rw [State.ctx, List.getD_eq_default _ _ (not_lt.1 hcur)]
    exact Ctx.reset_memOk

theorem State.Edit.banksOk {s t : State} (h : s.Edit t) (hs : s.banksOk = true) : t.banksOk = true := by
  rcases h.ctxs with hctxs | ⟨c, hc, rfl⟩
  · rwa [State.banksOk, hctxs]
  · refine State.banksOk_iff.2 fun d hd => ?_
    rcases List.mem_or_eq_of_mem_set hd with hd | rfl
    · exact State.banksOk_iff.1 hs d hd
    · exact hc (State.ctx_memOk hs)

theorem State.Edit.ring_ok {s t : State} (h : s.Edit t) (hs : s.ring.ok = true) : t.ring.ok = true := by
  cases h with
  | bank => exact hs
  | work h =>
    cases h with
    | ring hr => exact hr hs
    | _ => exact hs

/-! ## The registry -/

/-- `e'` keeps what `e` was created with, and SEEN once it is set (10_state.md R25, R29). -/
def Dev.SameDevice (e e' : Dev) : Prop :=
  (e'.devid, e'.mfr, e'.prod, e'.cls, e'.ext, e'.wakeGated, e'.joined, e'.hasCc)
      = (e.devid, e.mfr, e.prod, e.cls, e.ext, e.wakeGated, e.joined, e.hasCc)
    ∧ (e.seen = true → e'.seen = true)

theorem Dev.SameDevice.refl (e : Dev) : e.SameDevice e := ⟨rfl, id⟩

theorem Dev.SameDevice.trans {e f g : Dev} (h : e.SameDevice f) (h' : f.SameDevice g) : e.SameDevice g :=
  ⟨h'.1.trans h.1, h'.2 ∘ h.2⟩

theorem Dev.SameDevice.devid {e e' : Dev} (h : e.SameDevice e') : e'.devid = e.devid := congrArg Prod.fst h.1

/-- The counter `c'` follows the counter `c` of the entries with `p` when an entry `e` becomes `e'`. -/
def CountsAs (p : Dev → Bool) (e e' : Dev) (c c' : BitVec 16) : Prop :=
  c' + (if p e then 1 else 0) = c + (if p e' then 1 else 0)

theorem CountsAs.of_eq {p : Dev → Bool} {e e' : Dev} (h : p e' = p e) (c : BitVec 16) : CountsAs p e e' c c := by
  rw [CountsAs, h]

/-- A counter that follows its entries still counts them (10_state.md R27). -/
theorem CountsAs.countP {p : Dev → Bool} {e e' : Dev} {c c' : BitVec 16} (h : CountsAs p e e' c c') {ds : List Dev}
    (hfits : ds.length ≤ 65535) {k : Nat} (he : ds[k]? = some e) (hc : c.toNat = ds.countP p) :
    c'.toNat = (ds.set k e').countP p := by
  obtain ⟨hk, rfl⟩ := List.getElem?_eq_some_iff.1 he
  have hset := List.countP_set (p := p) (a := e') hk
  have hle : (ds.set k e').countP p ≤ ds.length := List.countP_le_length.trans (by simp)
  have hle' : ds.countP p ≤ ds.length := List.countP_le_length
  have hsum := congrArg BitVec.toNat h
  have hlt := c'.isLt
  cases hp : p ds[k] with
  | false => cases hp' : p e' <;> simp [hp, hp', BitVec.toNat_add] at hsum hset <;> omega
  | true =>
    have hpos : 0 < ds.countP p := List.countP_pos_iff.2 ⟨_, List.getElem_mem hk, hp⟩
    cases hp' : p e' <;> simp [hp, hp', BitVec.toNat_add] at hsum hset <;> omega

/-- From `s` to `t` the entry `e` at index `k` becomes `e'`, and the counters follow. -/
structure State.Entry (s t : State) (k : Nat) (e e' : Dev) : Prop where
  get : s.devs[k]? = some e
  devs : t.devs = s.devs.set k e'
  same : e.SameDevice e'
  ok : e.ok = true → e'.ok = true
  active : CountsAs Dev.activeOut e e' s.cntActive t.cntActive
  precached : CountsAs Dev.precachedOut e e' s.cntPrecached t.cntPrecached

/-- From `s` to `t` the entry `e` is new (44_retry_sequencer.md R121). -/
structure State.Created (s t : State) (e : Dev) : Prop where
  devs : t.devs = s.devs ++ [e]
  counters : (t.cntActive, t.cntPrecached) = (s.cntActive, s.cntPrecached)
  ok : e.ok = true
  idle : e.cc.pending = false
  new : ∀ d ∈ s.devs, d.devid ≠ e.devid
  room : s.devs.length ≠ s.cfg.devMax

theorem State.dev_get {s : State} {k : Nat} (hk : k < s.devs.length) : s.devs[k]? = some (s.dev k) := by
  rw [State.dev, List.getD_eq_getElem?_getD, List.getElem?_eq_getElem hk, Option.getD_some]

/-- Only a valid entry has a CachedCommand. -/
theorem State.dev_get_of_hasCc {s : State} {k : Nat} (h : (s.dev k).hasCc = true) : s.devs[k]? = some (s.dev k) := by
  by_cases hk : k < s.devs.length
  · exact State.dev_get hk
  · rw [State.dev_of_ge (not_lt.1 hk)] at h
    cases h

theorem clearedDev_ok {e : Dev} (h : e.ok = true) : (clearedDev e).ok = true := by
  obtain ⟨hcls, hext, -, hlen, hwf⟩ := Dev.ok_iff.1 h
  exact Dev.ok_iff.2 ⟨hcls, hext, nofun, hlen, hwf⟩

theorem attachedDev_ok {e : Dev} {cmd : Byte} {d : BitVec 32} {n : Byte} {f : List Byte} (hcc : e.hasCc = true)
    (hmin : 11 ≤ f.length) (hmax : f.length ≤ frameMax) (h : e.ok = true) : (attachedDev e cmd d n f).ok = true := by
  obtain ⟨hcls, hext, -⟩ := Dev.ok_iff.1 h
  have hflen : (attachedDev e cmd d n f).cc.flen.toNat = f.length := by
    unfold frameMax at hmax
    simp only [attachedDev, BitVec.toNat_ofNat]
    omega
  refine Dev.ok_iff.2 ⟨hcls, hext, fun _ => ⟨hcc, ?_⟩, ?_, ?_⟩
  all_goals rw [hflen]
  · exact hmin
  · exact hmax
  · exact Memory.wf_ofBytes le_rfl

theorem newDev_ok (cfg : Config) (d : BitVec 24) (m p : Byte) (j n : Bool) (t : BitVec 64) : (newDev cfg d m p j n t).ok = true := by
  refine Dev.ok_iff.2 ⟨rfl, ?_, nofun, Nat.zero_le _, rfl⟩
  simp only [newDev, productInfo]
  split
  · rename_i row _
    cases row.kind <;> simp [kindExt, kindClass]
  · exact .inl rfl

/-- What an update does to the registry and its counters: nothing, or it creates an entry or changes one. -/
def State.RegistryStep (s t : State) : Prop :=
  (t.devs, t.cntActive, t.cntPrecached) = (s.devs, s.cntActive, s.cntPrecached)
    ∨ (∃ e, s.Created t e) ∨ ∃ k e e', s.Entry t k e e'

/-- A write of an entry that leaves its command alone. -/
theorem State.RegistryStep.setDev {s : State} {k : Nat} (e' : Dev) (hsame : (s.dev k).SameDevice e')
    (hok : (s.dev k).ok = true → e'.ok = true) (hcmd : (e'.hasCc, e'.cc) = ((s.dev k).hasCc, (s.dev k).cc)) :
    s.RegistryStep (s.setDev k e') := by
  obtain ⟨hhas, hcc⟩ := Prod.mk.inj hcmd
  by_cases hk : k < s.devs.length
  · refine .inr (.inr ⟨k, s.dev k, e', State.dev_get hk, rfl, hsame, hok, .of_eq ?_ _, .of_eq ?_ _⟩)
    · rw [Dev.activeOut, Dev.activeOut, hhas, hcc]
    · rw [Dev.precachedOut, Dev.precachedOut, hhas, hcc]
  · exact .inl (by simp [List.set_eq_of_length_le (not_lt.1 hk)])

theorem State.Work.registry {s t : State} (h : s.Work t) : s.RegistryStep t := by
  cases h with
  | create m p j n ts hnew hroom =>
    exact .inr (.inl ⟨_, rfl, rfl, newDev_ok .., rfl, State.lookup_none.1 hnew, hroom⟩)
  | @clear k hout =>
    obtain ⟨hcc, hpend⟩ := Bool.and_eq_true_iff.1 hout
    refine .inr (.inr ⟨k, _, _, State.dev_get_of_hasCc hcc, rfl, ⟨rfl, id⟩, clearedDev_ok, ?_, ?_⟩)
    all_goals cases hact : (s.dev k).cc.active <;> simp [CountsAs, Dev.activeOut, Dev.precachedOut, clearedDev, hcc, hpend, hact]
  | @attach k cmd d n f hcc hmin hmax =>
    refine .inr (.inr ⟨k, _, _, State.dev_get_of_hasCc hcc, rfl, ⟨rfl, id⟩, attachedDev_ok hcc hmin hmax, ?_, ?_⟩)
    all_goals
      rw [State.attachCmd_eq rfl]
      cases hpend : (s.dev k).cc.pending <;> cases hseen : (s.dev k).seen <;>
        simp [CountsAs, Dev.activeOut, Dev.precachedOut, attachedDev, hcc, hpend, hseen]
  | @send k hout =>
    obtain ⟨hcc, hpend⟩ := Bool.and_eq_true_iff.1 hout
    refine .inr (.inr ⟨k, _, _, State.dev_get_of_hasCc hcc, rfl, ⟨rfl, id⟩, id, ?_, ?_⟩)
    all_goals
      cases hact : (s.dev k).cc.active <;>
        simp [CountsAs, Dev.activeOut, Dev.precachedOut, State.sendOnce, sentDev, hcc, hpend, hact]
  | seen k => exact .setDev { s.dev k with seen := true } ⟨rfl, fun _ => rfl⟩ id rfl
  | thermostat k th => exact .setDev { s.dev k with th := th } ⟨rfl, id⟩ id rfl
  | _ => exact .inl rfl

theorem State.Edit.registry {s t : State} (h : s.Edit t) : s.RegistryStep t := by
  cases h with
  | work h => exact h.registry
  | bank => exact .inl rfl

theorem State.Edit.registryOk {s t : State} (h : s.Edit t) (hs : s.registryOk = true) : t.registryOk = true := by
  obtain ⟨hok, hid⟩ := State.registryOk_iff.1 hs
  rw [State.registryOk_iff]
  rcases h.registry with hsame | ⟨e, hnew⟩ | ⟨k, e, e', hentry⟩
  · obtain ⟨hdevs, -⟩ := Prod.mk.inj hsame
    rw [hdevs]
    exact ⟨hok, hid⟩
  · rw [hnew.devs]
    refine ⟨fun d hd => ?_, ?_⟩
    · rcases List.mem_append.1 hd with hd | hd
      · exact hok d hd
      · rw [List.mem_singleton.1 hd]
        exact hnew.ok
    · rw [List.map_append, List.map_singleton, ← List.concat_eq_append]
      exact hid.concat (by simpa using hnew.new)
  · rw [hentry.devs]
    have hmem : e ∈ s.devs := List.mem_of_getElem? hentry.get
    refine ⟨fun d hd => ?_, ?_⟩
    · rcases List.mem_or_eq_of_mem_set hd with hd | rfl
      · exact hok d hd
      · exact hentry.ok (hok e hmem)
    · have hids : (s.devs.set k e').map (·.devid) = s.devs.map (·.devid) := by
        have hget : (s.devs.map (·.devid))[k]? = some e.devid := by rw [List.getElem?_map, hentry.get, Option.map_some]
        obtain ⟨hk, hdevid⟩ := List.getElem?_eq_some_iff.1 hget
        rw [List.map_set, hentry.same.devid, ← hdevid, List.set_getElem_self]
      rwa [hids]

theorem State.registryFits_iff {s : State} : s.registryFits = true ↔ s.devs.length ≤ s.cfg.devMax := decide_eq_true_iff

theorem devMax_le (c : Config) : c.devMax ≤ 65535 := c.devMaxLess1.isLt

theorem State.countersOk_iff {s : State} :
    s.countersOk = true ↔
      s.cntActive.toNat = s.devs.countP Dev.activeOut ∧ s.cntPrecached.toNat = s.devs.countP Dev.precachedOut := by
  simp [State.countersOk]

theorem State.Edit.registryFits {s t : State} (h : s.Edit t) (hs : s.registryFits = true) : t.registryFits = true := by
  rw [State.registryFits_iff] at hs ⊢
  rw [h.cfg_cur_length.1]
  rcases h.registry with hsame | ⟨e, hnew⟩ | ⟨k, e, e', hentry⟩
  · rw [(Prod.mk.inj hsame).1]
    exact hs
  · have hroom := hnew.room
    rw [hnew.devs, List.length_append, List.length_singleton]
    omega
  · rw [hentry.devs, List.length_set]
    exact hs

theorem State.Edit.countersOk {s t : State} (h : s.Edit t) (hfits : s.registryFits = true) (hs : s.countersOk = true) :
    t.countersOk = true := by
  have hlen : s.devs.length ≤ 65535 := (State.registryFits_iff.1 hfits).trans (devMax_le s.cfg)
  rw [State.countersOk_iff] at hs ⊢
  rcases h.registry with hsame | ⟨e, hnew⟩ | ⟨k, e, e', hentry⟩
  · simp only [Prod.mk.injEq] at hsame
    obtain ⟨hdevs, hactive, hprecached⟩ := hsame
    rwa [hdevs, hactive, hprecached]
  · obtain ⟨hactive, hprecached⟩ := Prod.mk.inj hnew.counters
    simpa [hnew.devs, hactive, hprecached, List.countP_append, Dev.activeOut, Dev.precachedOut, hnew.idle] using hs
  · rw [hentry.devs]
    exact ⟨hentry.active.countP hlen hentry.get hs.1, hentry.precached.countP hlen hentry.get hs.2⟩

/-! ## What no step undoes -/

/-- What of `s` no update undoes (10_state.md R25, R29, R31, R32; 70_reset_and_hazards.md R168). -/
structure State.Onward (s t : State) : Prop where
  cfg : t.cfg = s.cfg
  now : t.now = s.now
  events : ∃ es, t.events = s.events ++ es
  fatal : s.fatal = true → t.fatal = true
  entry : ∀ (k : Nat) (e : Dev), s.devs[k]? = some e → ∃ e', t.devs[k]? = some e' ∧ e.SameDevice e'

theorem State.Onward.refl (s : State) : s.Onward s :=
  ⟨rfl, rfl, ⟨[], (List.append_nil _).symm⟩, id, fun _ e he => ⟨e, he, .refl e⟩⟩

theorem State.Onward.trans {s t u : State} (h : s.Onward t) (h' : t.Onward u) : s.Onward u := by
  refine ⟨h'.cfg.trans h.cfg, h'.now.trans h.now, ?_, h'.fatal ∘ h.fatal, fun k e he => ?_⟩
  · obtain ⟨es, hes⟩ := h.events
    obtain ⟨es', hes'⟩ := h'.events
    exact ⟨es ++ es', by rw [hes', hes, List.append_assoc]⟩
  · obtain ⟨f, hf, hsame⟩ := h.entry k e he
    obtain ⟨g, hg, hsame'⟩ := h'.entry k f hf
    exact ⟨g, hg, hsame.trans hsame'⟩

theorem State.RegistryStep.entry {s t : State} (h : s.RegistryStep t) {k : Nat} {e : Dev} (he : s.devs[k]? = some e) :
    ∃ e', t.devs[k]? = some e' ∧ e.SameDevice e' := by
  rcases h with hsame | ⟨d, hnew⟩ | ⟨j, d, d', hentry⟩
  · exact ⟨e, by rw [(Prod.mk.inj hsame).1, he], .refl e⟩
  · refine ⟨e, ?_, .refl e⟩
    rw [hnew.devs, List.getElem?_append_left (List.getElem?_eq_some_iff.1 he).1, he]
  · rw [hentry.devs]
    by_cases hjk : j = k
    · subst hjk
      cases he.symm.trans hentry.get
      exact ⟨d', List.getElem?_set_self (List.getElem?_eq_some_iff.1 he).1, hentry.same⟩
    · exact ⟨e, by rw [List.getElem?_set_ne hjk, he], .refl e⟩

theorem State.Work.log_fatal {s t : State} (h : s.Work t) :
    t.now = s.now ∧ (∃ es, t.events = s.events ++ es) ∧ (s.fatal = true → t.fatal = true) := by
  cases h with
  | log es => exact ⟨rfl, ⟨es, rfl⟩, id⟩
  | send => exact ⟨rfl, ⟨_, rfl⟩, id⟩
  | fatal => exact ⟨rfl, ⟨[], (List.append_nil _).symm⟩, fun _ => rfl⟩
  | _ => exact ⟨rfl, ⟨[], (List.append_nil _).symm⟩, id⟩

theorem State.Edit.onward {s t : State} (h : s.Edit t) : s.Onward t := by
  obtain ⟨hnow, hevents, hfatal⟩ :
      t.now = s.now ∧ (∃ es, t.events = s.events ++ es) ∧ (s.fatal = true → t.fatal = true) := by
    cases h with
    | work h => exact h.log_fatal
    | bank => exact ⟨rfl, ⟨[], (List.append_nil _).symm⟩, id⟩
  exact ⟨h.cfg_cur_length.1, hnow, hevents, hfatal, fun _ _ => h.registry.entry⟩

theorem State.Edits.onward {s t : State} (h : s.Edits t) : s.Onward t :=
  h.keep (P := s.Onward) (fun hu hs => hs.trans hu.onward) (.refl s)

/-! ## After reset -/

theorem Ring.reset_ok : Ring.reset.ok = true := by decide

theorem State.resetWith_banksOk (c : Config) : (State.resetWith c).banksOk = true :=
  State.banksOk_iff.2 fun _ hd => List.eq_of_mem_replicate hd ▸ Ctx.reset_memOk

theorem State.resetWith_contextsOk (c : Config) : (State.resetWith c).contextsOk = true := by
  simp [State.contextsOk, State.resetWith, Config.agents]

theorem State.pollsOk_iff {s : State} : s.pollsOk = true ↔ ∀ n c, s.ctxs[n]? = some c → s.pollOk n c = true := by
  rw [State.pollsOk, List.all_eq_true]
  exact ⟨fun h n c hc => h (c, n) (List.mem_zipIdx_iff_getElem?.2 hc), fun h p hp => h _ _ (List.mem_zipIdx_iff_getElem?.1 hp)⟩

theorem State.resetWith_pollsOk (c : Config) : (State.resetWith c).pollsOk = true :=
  State.pollsOk_iff.2 fun _ _ hd => List.eq_of_mem_replicate (List.mem_of_getElem? hd) ▸ rfl

/-- Settles O58: every bank is `Ctx.reset`, and the ring, the registry and the port log are empty. -/
theorem resetMeetsInvariants : Obligations.ResetMeetsInvariants := by
  intro cfg
  have hring : (State.resetWith cfg).ring.ok = true := Ring.reset_ok
  have hfits : (State.resetWith cfg).registryFits = true := State.registryFits_iff.2 (Nat.zero_le _)
  have hregistry : (State.resetWith cfg).registryOk = true := State.registryOk_iff.2 ⟨nofun, .nil⟩
  have hcounters : (State.resetWith cfg).countersOk = true := State.countersOk_iff.2 ⟨rfl, rfl⟩
  have hgate : (State.resetWith cfg).gateOk = true := rfl
  have hport : (State.resetWith cfg).portOk = true := rfl
  simp only [State.resetWith_banksOk, hring, hfits, hregistry, hcounters, State.resetWith_contextsOk, hgate,
    State.resetWith_pollsOk, hport, Bool.and_self]

/-! ## The statements -/

/-- Settles O53: each update of a step goes onward. -/
theorem nothingUndone : Obligations.NothingUndone := by
  intro s t hstep
  rcases step_cases hstep with ⟨hreset, rfl⟩ | ⟨d, -, rfl⟩ | ⟨c, -, -, hedits⟩
  · exact ⟨rfl, le_rfl, fun hne => absurd hreset hne⟩
  · refine ⟨rfl, ?_, fun _ => ⟨⟨[], (List.append_nil _).symm⟩, id, fun _ e he => ⟨e, he, rfl, id⟩⟩⟩
    have hnow := s.now.isLt
    simp only [State.tick_now, State.afterInput_now, satAdd, BitVec.toNat_ofNat]
    omega
  · have h := hedits.onward
    exact ⟨h.cfg, le_of_eq (congrArg BitVec.toNat h.now.symm), fun _ => ⟨h.events, h.fatal, h.entry⟩⟩

/-- Settles O54: each update keeps every bank in shape, and the ring. -/
theorem banksAndRingKept : Obligations.BanksAndRingKept := by
  intro s t hstep
  rcases step_cases hstep with ⟨-, rfl⟩ | ⟨d, -, rfl⟩ | ⟨c, -, -, hedits⟩
  · exact ⟨fun _ => State.resetWith_banksOk s.cfg, fun _ => Ring.reset_ok⟩
  · exact ⟨id, id⟩
  · exact ⟨hedits.keep State.Edit.banksOk, hedits.keep State.Edit.ring_ok⟩

/-- Settles O55: each update changes at most one entry, and the counters follow it. -/
theorem registryAndCountersKept : Obligations.RegistryAndCountersKept := by
  intro s t hstep
  rcases step_cases hstep with ⟨-, rfl⟩ | ⟨d, -, rfl⟩ | ⟨c, -, -, hedits⟩
  · exact ⟨fun _ => State.registryOk_iff.2 ⟨nofun, .nil⟩,
      fun _ _ => ⟨State.registryFits_iff.2 (Nat.zero_le _), State.countersOk_iff.2 ⟨rfl, rfl⟩⟩⟩
  · exact ⟨id, And.intro⟩
  · exact ⟨hedits.keep State.Edit.registryOk, fun hfits hcounters =>
      hedits.keep (P := fun u => u.registryFits = true ∧ u.countersOk = true)
        (fun hu ⟨hf, hc⟩ => ⟨hu.registryFits hf, hu.countersOk hf hc⟩) ⟨hfits, hcounters⟩⟩

end Sys2Proof.Machine
end

section
/-! SUPPORT. The poll states, the gate and the number of contexts. Updates for one context keep the poll state of every other; the end
of each operation and of each step of a poll puts the context's own poll state in order. -/

namespace Sys2Proof.Machine

theorem State.contextsOk_iff {s : State} : s.contextsOk = true ↔ s.ctxs.length = s.cfg.agents ∧ s.cur < s.ctxs.length := by
  simp [State.contextsOk]

theorem State.gateOk_iff {s : State} :
    s.gateOk = true ↔ (s.gate.held = true → s.gate.init = true ∧ s.gate.owner.toNat < s.ctxs.length) := by
  rw [State.gateOk]
  cases s.gate.held <;> simp

/-- The invariant of a poll state, clause by clause (10_state.md R22; 44_retry_sequencer.md R138, R139, R142). -/
structure State.PollOk (s : State) (n : Nat) (c : Ctx) : Prop where
  busy : c.busy = !(c.poll.rxs == .off)
  idle : c.poll.rxs = .idle → c.poll.wake.toNat ≤ c.poll.deadline.toNat ∧ c.poll.zero = false
  inject : c.poll.rxs = .inject → c.poll.dev.toNat < s.devs.length ∧ c.dec.valid = true
  owned : c.poll.rxs.polling = true → c.poll.owned = true → s.gate.held = true ∧ s.gate.owner.toNat = n

theorem State.pollOk_iff {s : State} {n : Nat} {c : Ctx} : s.pollOk n c = true ↔ s.PollOk n c := by
  have hclauses : s.pollOk n c = true ↔ (c.busy = !(c.poll.rxs == .off))
      ∧ (c.poll.rxs = .idle → c.poll.wake.toNat ≤ c.poll.deadline.toNat ∧ c.poll.zero = false)
      ∧ (c.poll.rxs = .inject → c.poll.dev.toNat < s.devs.length ∧ c.dec.valid = true)
      ∧ (c.poll.rxs.polling = true → c.poll.owned = true → s.gate.held = true ∧ s.gate.owner.toNat = n) := by
    simp only [State.pollOk, Bool.and_eq_true, beq_iff_eq, and_assoc]
    cases c.poll.rxs <;> cases c.poll.owned <;> simp [PollState.polling]
  exact hclauses.trans ⟨fun ⟨hb, hi, hj, ho⟩ => ⟨hb, hi, hj, ho⟩, fun h => ⟨h.busy, h.idle, h.inject, h.owned⟩⟩

/-- A context that waits for nothing is in order. -/
theorem State.PollOk.of_idle {s : State} {n : Nat} {c : Ctx} (hbusy : c.busy = false) (hrxs : c.poll.rxs = .off) :
    s.PollOk n c := by
  refine ⟨by rw [hbusy, hrxs]; rfl, ?_, ?_, ?_⟩
  all_goals
    rw [hrxs]
    nofun

/-! ## The other contexts -/

/-- What an update does to the gate: nothing, or the issuing context takes it from free, or the holder frees it. -/
theorem State.Work.gate {s t : State} (h : s.Work t) :
    t.gate = s.gate ∨ (s.gate.held = false ∧ t.gate = { init := true, held := true, owner := BitVec.ofNat 8 s.cur })
      ∨ (s.holdsGate = true ∧ t.gate.held = false) := by
  cases h with
  | grant hfree => exact .inr (.inl ⟨hfree, rfl⟩)
  | release i hown => exact .inr (.inr ⟨hown, rfl⟩)
  | _ => exact .inl rfl

theorem State.Edit.gate {s t : State} (h : s.Edit t) :
    t.gate = s.gate ∨ (s.gate.held = false ∧ t.gate = { init := true, held := true, owner := BitVec.ofNat 8 s.cur })
      ∨ (s.holdsGate = true ∧ t.gate.held = false) := by
  cases h with
  | work h => exact h.gate
  | bank => exact .inl rfl

theorem State.RegistryStep.length_le {s t : State} (h : s.RegistryStep t) : s.devs.length ≤ t.devs.length := by
  rcases h with hsame | ⟨e, hnew⟩ | ⟨k, e, e', hentry⟩
  · rw [(Prod.mk.inj hsame).1]
  · rw [hnew.devs, List.length_append]
    exact Nat.le_add_right ..
  · rw [hentry.devs, List.length_set]

/-- A context's number fits into G_OWNER (10_state.md R30). -/
theorem State.cur_toNat {s : State} (h : s.contextsOk = true) : (BitVec.ofNat 8 s.cur).toNat = s.cur := by
  obtain ⟨hlen, hcur⟩ := State.contextsOk_iff.1 h
  have hagents : s.cfg.agents ≤ 255 := s.cfg.agentsLess1.isLt
  rw [BitVec.toNat_ofNat]
  omega

theorem State.holdsGate_iff_owner {s : State} (h : s.contextsOk = true) :
    s.holdsGate = true ↔ s.gate.held = true ∧ s.gate.owner.toNat = s.cur := by
  rw [State.holdsGate_iff, ← BitVec.toNat_inj, State.cur_toNat h]

theorem State.Edit.contextsOk {s t : State} (h : s.Edit t) (hs : s.contextsOk = true) : t.contextsOk = true := by
  obtain ⟨hcfg, hcur, hlen⟩ := h.cfg_cur_length
  rwa [State.contextsOk_iff, hcfg, hcur, hlen, ← State.contextsOk_iff]

theorem State.Edit.gateOk {s t : State} (h : s.Edit t) (hctxs : s.contextsOk = true) (hs : s.gateOk = true) :
    t.gateOk = true := by
  rw [State.gateOk_iff] at hs ⊢
  rw [h.cfg_cur_length.2.2]
  rcases h.gate with hsame | ⟨-, hgrant⟩ | ⟨-, hfree⟩
  · rwa [hsame]
  · rw [hgrant]
    exact fun _ => ⟨rfl, (State.cur_toNat hctxs).trans_lt (State.contextsOk_iff.1 hctxs).2⟩
  · rw [hfree]
    nofun

theorem State.Edit.pollOk_other {s t : State} (h : s.Edit t) (hctxs : s.contextsOk = true) {n : Nat} (hn : n ≠ s.cur) {c : Ctx}
    (hs : s.PollOk n c) : t.PollOk n c := by
  refine ⟨hs.busy, hs.idle, fun hrxs => ?_, fun hpoll hown => ?_⟩
  · obtain ⟨hdev, hvalid⟩ := hs.inject hrxs
    exact ⟨hdev.trans_le h.registry.length_le, hvalid⟩
  · obtain ⟨hheld, howner⟩ := hs.owned hpoll hown
    rcases h.gate with hsame | ⟨hfree, -⟩ | ⟨hmine, -⟩
    · rw [hsame]
      exact ⟨hheld, howner⟩
    · rw [hheld] at hfree
      cases hfree
    · exact absurd (howner.symm.trans ((State.holdsGate_iff_owner hctxs).1 hmine).2) hn

/-- Everything but the issuing context's own poll state is in order. -/
structure State.OthersOk (s : State) : Prop where
  contexts : s.contextsOk = true
  gate : s.gateOk = true
  fits : s.registryFits = true
  polls : ∀ n c, n ≠ s.cur → s.ctxs[n]? = some c → s.PollOk n c

theorem State.Edit.othersOk {s t : State} (h : s.Edit t) (hs : s.OthersOk) : t.OthersOk := by
  refine ⟨h.contextsOk hs.contexts, h.gateOk hs.contexts hs.gate, h.registryFits hs.fits, fun n c hn hc => ?_⟩
  rw [h.cfg_cur_length.2.1] at hn
  rw [h.other_bank hn] at hc
  exact h.pollOk_other hs.contexts hn (hs.polls n c hn hc)

theorem State.Edits.othersOk {s t : State} (h : s.Edits t) (hs : s.OthersOk) : t.OthersOk :=
  h.keep State.Edit.othersOk hs

/-! ## The context whose step is taken -/

/-- The issuing context's own poll state is in order. -/
def State.OwnOk (s : State) : Prop := s.PollOk s.cur s.ctx

theorem State.finish_ctx {s : State} (hcur : s.cur < s.ctxs.length) (e : Code) : (s.finish e).ctx = s.ctx.done e :=
  State.setCtx_ctx_of_lt hcur _

theorem State.Finishes.ownOk {s t : State} (h : s.Finishes t) (hcur : s.cur < s.ctxs.length) (hrxs : s.ctx.poll.rxs = .off) :
    t.OwnOk := by
  obtain ⟨u, e, hu, rfl⟩ := h
  refine State.PollOk.of_idle ?_ ?_
  all_goals rw [State.finish_ctx (hu.cur_lt hcur)]
  · rfl
  · show u.ctx.poll.rxs = .off
    rw [(hu.poll_busy hcur).1, hrxs]

theorem State.endPoll_ownOk {s : State} (hcur : s.cur < s.ctxs.length) (e : Code) : (s.endPoll e).OwnOk := by
  rw [State.endPoll_eq (State.ctx_get hcur)]
  refine State.PollOk.of_idle ?_ ?_
  all_goals
    rw [State.setCtx_ctx_of_lt hcur]
    rfl

theorem PollState.beq_off_of_polling {p : PollState} (h : p.polling = true) : (p == .off) = false := by
  cases p with
  | off => cases h
  | _ => rfl

theorem State.PollStep.ownOk {s t : State} (h : s.PollStep t) (hothers : s.OthersOk) (hs : s.OwnOk)
    (hpoll : s.ctx.poll.rxs.polling = true) : t.OwnOk := by
  obtain ⟨-, hcur⟩ := State.contextsOk_iff.1 hothers.contexts
  cases h with
  | hold => exact hs
  | done h e => exact State.endPoll_ownOk (h.cur_lt hcur) e
  | @goOn u p h hown hp =>
    have hfits : u.devs.length ≤ 65535 :=
      (State.registryFits_iff.1 (h.edits.othersOk hothers).fits).trans (devMax_le u.cfg)
    obtain ⟨hpolls, hbusy⟩ := h.poll_busy hcur
    rw [State.OwnOk, State.setCtx_ctx_of_lt (h.cur_lt hcur)]
    refine ⟨?_, hp.idle, fun hrxs => ?_, fun _ howned => ?_⟩
    · show u.ctx.busy = !(p.rxs == .off)
      rw [hbusy, hs.busy, PollState.beq_off_of_polling hpoll, PollState.beq_off_of_polling hp.polling]
    · obtain ⟨hvalid, k, hk, hdev⟩ := hp.inject hrxs
      refine ⟨?_, hvalid⟩
      simp only [hdev, BitVec.toNat_ofNat, State.setCtx_devs]
      omega
    · have hmine := hs.owned hpoll (by rw [← hpolls, ← hp.owned]; exact howned)
      rw [State.setCtx_gate, State.setCtx_cur, h.cur_eq, hown ((State.holdsGate_iff_owner hothers.contexts).2 hmine)]
      exact hmine

theorem State.proceed_ownOk {s : State} (hothers : s.OthersOk) (hs : s.OwnOk) : s.proceed.OwnOk := by
  obtain ⟨-, hcur⟩ := State.contextsOk_iff.1 hothers.contexts
  cases hpoll : s.ctx.poll.rxs.polling with
  | true => exact (State.proceed_pollStep hcur hpoll).ownOk hothers hs hpoll
  | false =>
    cases hrxs : s.ctx.poll.rxs with
    | off =>
      rw [show s.proceed = s by rw [State.proceed, hrxs]]
      exact hs
    | gateWait =>
      rcases State.proceed_gateWait hrxs with hhold | hdone
      · rw [hhold]
        exact hs
      · refine hdone.ownOk (by simpa [State.setRxs] using hcur) ?_
        rw [State.setRxs, State.setCtx_ctx_of_lt hcur]
    | draining | decoding | inject | idle =>
      rw [hrxs] at hpoll
      cases hpoll

theorem execRxPoll_ownOk {s t : State} (hctxs : s.contextsOk = true) (h : execRxPoll s = .next t) : t.OwnOk := by
  cases h
  rw [State.OwnOk, State.setCtx_ctx_of_lt (State.contextsOk_iff.1 hctxs).2]
  exact ⟨rfl, nofun, nofun, fun _ hown => (State.holdsGate_iff_owner hctxs).1 hown⟩

theorem exec_ownOk {i : Instr} {s t : State} (hctxs : s.contextsOk = true) (hrxs : s.ctx.poll.rxs = .off)
    (h : exec i s = .next t) : t.OwnOk := by
  obtain ⟨-, hcur⟩ := State.contextsOk_iff.1 hctxs
  have hfin : s.FinishesIn (exec i s) → t.OwnOk := by
    rintro ⟨u, hu, hdone⟩
    cases h.symm.trans hu
    exact hdone.ownOk hcur hrxs
  by_cases hgate : i = .gateAcquire
  · subst hgate
    rcases execGateAcquire_cases s with hdone | hwait
    · exact hfin hdone
    · cases h.symm.trans hwait
      rw [State.OwnOk, State.setCtx_ctx_of_lt hcur]
      exact ⟨rfl, nofun, nofun, nofun⟩
  · by_cases hpoll : i = .rxPoll
    · subst hpoll
      exact execRxPoll_ownOk hctxs h
    · exact hfin (exec_finishes s hgate hpoll)

theorem State.command_ownOk {s t : State} {c : Nat} {w : Word} (hctxs : (s.select c).contextsOk = true)
    (hs : (s.select c).OwnOk) (h : s.command c w = .next t) : t.OwnOk := by
  obtain ⟨hc, hbusy, hrun⟩ := State.command_next h
  have hrxs : (s.select c).ctx.poll.rxs = .off := by simpa using hs.busy.symm.trans hbusy
  have hctx : (s.select c).begun.ctx.poll.rxs = .off := by
    rw [State.begun, State.setCtx_ctx_of_lt hc]
    exact hrxs
  have hcur : (s.select c).begun.cur < (s.select c).begun.ctxs.length := by simpa [State.begun] using hc
  rcases hrun with rfl | ⟨i, hexec⟩
  · exact ((State.Works.refl _).raise .illegalOp).ownOk hcur hctx
  · exact exec_ownOk (State.Edit.contextsOk (t := (s.select c).begun) (.bank id) hctxs) hctx hexec

theorem State.hostWrite_ownOk {s t : State} {c : Nat} {w : HostWrite} (hs : (s.select c).OwnOk)
    (h : s.hostWrite c w = .next t) : t.OwnOk := by
  obtain ⟨hc, b, hb, rfl⟩ := State.hostWrite_next h
  obtain ⟨hkeeps, hdec⟩ := Ctx.hostWrite_keeps hb
  rw [State.OwnOk, State.setCtx_ctx_of_lt hc]
  refine ⟨?_, ?_, ?_, ?_⟩
  · rw [hkeeps.busy, hkeeps.poll]
    exact hs.busy
  · rw [hkeeps.poll]
    exact hs.idle
  · rw [hkeeps.poll, hdec]
    exact hs.inject
  · rw [hkeeps.poll]
    exact hs.owned

theorem State.take_ownOk {s t : State} {i : Input} {c : Nat} (hi : inputContext i = some c) (hothers : (s.select c).OthersOk)
    (hs : (s.select c).OwnOk) (h : s.take i = .next t) : t.OwnOk := by
  cases i with
  | hostWrite n w =>
    cases hi
    exact State.hostWrite_ownOk hs h
  | command n w =>
    cases hi
    exact State.command_ownOk hothers.contexts hs h
  | proceed n =>
    cases hi
    obtain ⟨-, rfl⟩ := State.proceedAs_next h
    exact State.proceed_ownOk hothers hs
  | tick | reset => cases hi

theorem State.pollsOk_of {s : State} (hothers : s.OthersOk) (hown : s.OwnOk) : s.pollsOk = true := by
  refine State.pollsOk_iff.2 fun n c hc => State.pollOk_iff.2 ?_
  by_cases hn : n = s.cur
  · subst hn
    rw [← State.ctx_of hc]
    exact hown
  · exact hothers.polls n c hn hc

/-- Settles O56: the other contexts' poll states are kept by each update, the context's own by the step as a whole. -/
theorem pollStatesKept : Obligations.PollStatesKept := by
  intro s t hs hstep
  simp only [Bool.and_eq_true] at hs
  obtain ⟨⟨⟨hctxs, hgate⟩, hfits⟩, hpolls⟩ := hs
  suffices h : t.contextsOk = true ∧ t.gateOk = true ∧ t.pollsOk = true by
    obtain ⟨hc, hg, hp⟩ := h
    rw [hc, hg, hp]
    rfl
  rcases step_cases hstep with ⟨-, rfl⟩ | ⟨d, -, rfl⟩ | ⟨c, hi, hc, hedits⟩
  · exact ⟨State.resetWith_contextsOk s.cfg, rfl, State.resetWith_pollsOk s.cfg⟩
  · exact ⟨hctxs, hgate, hpolls⟩
  · have hpoll : ∀ n d, s.ctxs[n]? = some d → (s.afterInput.select c).PollOk n d := fun n d hd =>
      State.pollOk_iff.1 (State.pollsOk_iff.1 hpolls n d hd)
    have hothers : (s.afterInput.select c).OthersOk :=
      ⟨State.contextsOk_iff.2 ⟨(State.contextsOk_iff.1 hctxs).1, hc⟩, hgate, hfits, fun n d _ hd => hpoll n d hd⟩
    have hdone : t.OthersOk := hedits.othersOk hothers
    have hown : t.OwnOk := State.take_ownOk hi hothers (hpoll c _ (State.ctx_get (s := s.afterInput.select c) hc)) hstep
    exact ⟨hdone.contexts, hdone.gate, State.pollsOk_of hdone hown⟩

end Sys2Proof.Machine
end

section
/-! SUPPORT. What a host reads. -/

namespace Sys2Proof.Machine

/-- A host reads the registers of its own bank and the shared ones (10_state.md R21). -/
theorem State.hostRead_eq {s : State} {n : Nat} {c : Ctx} (h : s.ctxs[n]? = some c) (reg : HostReg) :
    s.hostRead n reg = s.readReg c reg := by
  simp only [State.hostRead, h]

/-- STATUS as a number (10_state.md R19): CODE below, and BUSY in bit 8. -/
theorem Ctx.status_toNat (c : Ctx) : c.status.toNat = (if c.busy then 256 else 0) + c.code.num.toNat := by
  unfold Ctx.status
  cases c.busy <;> cases c.code <;> rfl

/-- A buffer reads as its bytes (10_state.md R16). -/
theorem Ctx.bufByte_of_lt (c : Ctx) (i : Nat) :
    (i < 56 → c.bufByte .recBuf i = some (Memory.read c.recBuf i))
      ∧ (i < 67 → c.bufByte .txBuf i = some (Memory.read c.txBuf i) ∧ c.bufByte .rxBuf i = some (Memory.read c.rxBuf i)
          ∧ c.bufByte .plainBuf i = some (Memory.read c.plainBuf i)) :=
  ⟨fun h => if_pos h, fun h => ⟨if_pos h, if_pos h, if_pos h⟩⟩

/-- Settles O10: each read is the `readReg` of the bank. -/
theorem hostReadResult : Obligations.HostReadResult := by
  intro s n c hc
  simp only [State.hostRead_eq hc]
  refine ⟨?status, rfl, ?args, ?bytes, ?results, ?decode, ?records, ?shared, ?devCount⟩
  case status =>
    intro q hq hcode
    simp only [State.readReg, Ctx.status_toNat, hcode]
    fin_cases hq <;> rfl
  case bytes =>
    intro i
    obtain ⟨hrec, hframe⟩ := c.bufByte_of_lt i
    refine ⟨fun hi => ?_, fun hi => ?_⟩
    · rw [State.readReg, hrec hi, Option.map_some]
    · obtain ⟨htx, hrx, hplain⟩ := hframe hi
      simp only [State.readReg, htx, hrx, hplain, Option.map_some, and_self]
  case records =>
    intro k r hr
    refine ⟨?_, fun i b hb => ?_⟩
    · simp [State.readReg, hr]
    · simp [State.readReg, hr, hb]
  case devCount =>
    intro hlen
    rw [State.readReg, State.devCount, BitVec.toNat_ofNat, Nat.mod_eq_of_lt (by omega)]
  all_goals simp [State.readReg]

theorem State.resetWith_ctx {cfg : Config} {n : Nat} (h : n < cfg.agents) : (State.resetWith cfg).ctxs[n]? = some Ctx.reset :=
  List.getElem?_replicate_of_lt h

theorem Ctx.reset_dec_recs {k : Nat} (h : k < 28) : Ctx.reset.dec.recs[k]? = some DecRec.reset :=
  List.getElem?_replicate_of_lt h

/-- A register of a bank after reset reads 0 (10_state.md R38). -/
theorem State.resetWith_readReg (cfg : Config) {reg : HostReg} (h : regExists reg = true) :
    (State.resetWith cfg).readReg Ctx.reset reg = some 0 := by
  cases reg with
  | bufByte b i =>
    have hbuf : Ctx.reset.bufByte b i = some 0 := by cases b <;> exact if_pos (of_decide_eq_true h)
    rw [State.readReg, hbuf]
    rfl
  | recRaw k i =>
    obtain ⟨hk, hi⟩ := Bool.and_eq_true_iff.1 h
    have hraw : DecRec.reset.raw[i]? = some 0 := List.getElem?_replicate_of_lt (of_decide_eq_true hi)
    rw [State.readReg, Ctx.reset_dec_recs (of_decide_eq_true hk), Option.bind_some, hraw]
    rfl
  | recPid k | recCf k | recType k | recValueLen k | recOff k | recIval k | recBp k | recSigned k | recFvalid k =>
    rw [State.readReg, Ctx.reset_dec_recs (of_decide_eq_true h)]
    rfl
  | _ => rfl

/-- Settles O6: every bank is `Ctx.reset`, and every slot `Slot.reset`. -/
theorem resetValues : Obligations.ResetValues := by
  intro cfg
  refine ⟨List.length_replicate, fun n reg hn hreg => ?_, fun n c hc => ?_, rfl, fun e he => ?_, rfl, rfl⟩
  · rw [State.hostRead_eq (State.resetWith_ctx hn), State.resetWith_readReg cfg hreg]
  · rw [List.eq_of_mem_replicate (List.mem_of_getElem? hc)]
    rfl
  · rw [List.eq_of_mem_replicate he]
    exact ⟨rfl, rfl, fun _ => rfl⟩

end Sys2Proof.Machine
end

section
/-! SUPPORT. What a step does depends on no other bank (10_state.md R14). Two runs in lockstep, alike but for the other banks: each
shared operation keeps the two in lockstep, so each operation does. -/

namespace Sys2Proof.Machine

/-- `u` is `s` with the other banks of the list `o`. -/
structure State.Lockstep (o : List Ctx) (s u : State) : Prop where
  eq : u = s.graft o
  cur_lt : s.cur < s.ctxs.length
  cur_lt' : s.cur < o.length

namespace State.Lockstep

variable {o : List Ctx} {s u : State}

/-! ## What both runs see -/

theorem ctx (h : Lockstep o s u) : u.ctx = s.ctx := by
  rw [h.eq]
  exact State.setCtx_ctx_of_lt (s := { s with ctxs := o }) h.cur_lt' s.ctx

theorem cfg (h : Lockstep o s u) : u.cfg = s.cfg := by rw [h.eq]; rfl
theorem ring (h : Lockstep o s u) : u.ring = s.ring := by rw [h.eq]; rfl
theorem devs (h : Lockstep o s u) : u.devs = s.devs := by rw [h.eq]; rfl
theorem cntActive (h : Lockstep o s u) : u.cntActive = s.cntActive := by rw [h.eq]; rfl
theorem cntPrecached (h : Lockstep o s u) : u.cntPrecached = s.cntPrecached := by rw [h.eq]; rfl
theorem gate (h : Lockstep o s u) : u.gate = s.gate := by rw [h.eq]; rfl
theorem now (h : Lockstep o s u) : u.now = s.now := by rw [h.eq]; rfl
theorem dev (h : Lockstep o s u) (k : Nat) : u.dev k = s.dev k := by rw [h.eq]; rfl
theorem lookup (h : Lockstep o s u) (d : BitVec 24) : u.lookup d = s.lookup d := by rw [h.eq]; rfl
theorem holdsGate (h : Lockstep o s u) : u.holdsGate = s.holdsGate := by rw [h.eq]; rfl
theorem otherHolds (h : Lockstep o s u) : u.otherHolds = s.otherHolds := by rw [h.eq]; rfl
theorem nonce (h : Lockstep o s u) : u.nonce = s.nonce := by rw [h.eq]; rfl
theorem initAnswer (h : Lockstep o s u) : u.initAnswer = s.initAnswer := by rw [h.eq]; rfl
theorem waitAnswer (h : Lockstep o s u) : u.waitAnswer = s.waitAnswer := by rw [h.eq]; rfl
theorem readAnswer (h : Lockstep o s u) : u.readAnswer = s.readAnswer := by rw [h.eq]; rfl
theorem valueBytes (h : Lockstep o s u) (n : Nat) : u.valueBytes n = s.valueBytes n := by rw [h.eq]; rfl

/-! ## What both runs do -/

theorem setCtx (h : Lockstep o s u) (c : Ctx) : Lockstep o (s.setCtx c) (u.setCtx c) := by
  refine ⟨?_, by simpa using h.cur_lt, h.cur_lt'⟩
  rw [h.eq, State.graft, State.graft, State.setCtx_ctx_of_lt h.cur_lt]
  simp [State.setCtx]

/-- An update `f` that leaves the banks alone, and does not look at them. -/
theorem shared (h : Lockstep o s u) (f : State → State) (hf : ∀ cs, f { s with ctxs := cs } = { f s with ctxs := cs })
    (hcur : (f s).cur = s.cur) : Lockstep o (f s) (f u) := by
  have hctxs : (f s).ctxs = s.ctxs := by
    have hsame := congrArg State.ctxs (hf s.ctxs)
    exact hsame
  refine ⟨?_, by rw [hcur, hctxs]; exact h.cur_lt, by rw [hcur]; exact h.cur_lt'⟩
  rw [h.eq, State.graft, hf, State.graft, State.ctx_congr hctxs hcur, ← hcur]

theorem setRing (h : Lockstep o s u) (r : Ring) : Lockstep o (s.setRing r) (u.setRing r) :=
  h.shared (·.setRing r) (fun _ => rfl) rfl

theorem setGate (h : Lockstep o s u) (g : Gate) : Lockstep o (s.setGate g) (u.setGate g) :=
  h.shared (·.setGate g) (fun _ => rfl) rfl

theorem setDev (h : Lockstep o s u) (k : Nat) (e : Dev) : Lockstep o (s.setDev k e) (u.setDev k e) :=
  h.shared (·.setDev k e) (fun _ => rfl) rfl

theorem setFatal (h : Lockstep o s u) : Lockstep o s.setFatal u.setFatal := h.shared State.setFatal (fun _ => rfl) rfl

theorem logEvent (h : Lockstep o s u) (e : PortEvent) : Lockstep o (s.logEvent e) (u.logEvent e) :=
  h.shared (·.logEvent e) (fun _ => rfl) rfl

theorem afterNonce (h : Lockstep o s u) : Lockstep o s.afterNonce u.afterNonce := h.shared State.afterNonce (fun _ => rfl) rfl

theorem afterValueBytes (h : Lockstep o s u) : Lockstep o s.afterValueBytes u.afterValueBytes :=
  h.shared State.afterValueBytes (fun _ => rfl) rfl

theorem afterInit (h : Lockstep o s u) : Lockstep o s.afterInit u.afterInit := h.shared State.afterInit (fun _ => rfl) rfl

theorem afterWait (h : Lockstep o s u) : Lockstep o s.afterWait u.afterWait := h.shared State.afterWait (fun _ => rfl) rfl

theorem afterRead (h : Lockstep o s u) : Lockstep o s.afterRead u.afterRead := h.shared State.afterRead (fun _ => rfl) rfl

theorem grantGate (h : Lockstep o s u) : Lockstep o s.grantGate u.grantGate := h.shared State.grantGate (fun _ => rfl) rfl

theorem freeGate (h : Lockstep o s u) : Lockstep o s.freeGate u.freeGate := h.shared State.freeGate (fun _ => rfl) rfl

theorem attachCmd (h : Lockstep o s u) (k : Nat) (cmd : Byte) (d : BitVec 32) (n : Byte) (f : List Byte) :
    Lockstep o (s.attachCmd k cmd d n f) (u.attachCmd k cmd d n f) :=
  h.shared (·.attachCmd k cmd d n f) (fun _ => rfl) rfl

theorem sendOnce (h : Lockstep o s u) (k : Nat) : Lockstep o (s.sendOnce k) (u.sendOnce k) :=
  h.shared (·.sendOnce k) (fun _ => rfl) rfl

theorem clearCmd (h : Lockstep o s u) (k : Nat) : Lockstep o (s.clearCmd k) (u.clearCmd k) := by
  refine h.shared (·.clearCmd k) (fun cs => ?_) ((State.Works.refl s).clearCmd k).cur_eq
  cases hout : ((s.dev k).hasCc && (s.dev k).cc.pending) with
  | true =>
    rw [State.clearCmd_out rfl hout]
    exact State.clearCmd_out (s := { s with ctxs := cs }) rfl hout
  | false =>
    rw [State.clearCmd_idle hout]
    exact State.clearCmd_idle (s := { s with ctxs := cs }) hout

theorem finish (h : Lockstep o s u) (e : Code) : Lockstep o (s.finish e) (u.finish e) := by
  rw [State.finish, State.finish, h.ctx]
  exact h.setCtx _

theorem raise (h : Lockstep o s u) (e : Code) : Lockstep o (s.raise e) (u.raise e) := h.finish e

theorem setRxs (h : Lockstep o s u) (p : PollState) : Lockstep o (s.setRxs p) (u.setRxs p) := by
  rw [State.setRxs, State.setRxs, h.ctx]
  exact h.setCtx _

theorem endPoll (h : Lockstep o s u) (e : Code) : Lockstep o (s.endPoll e) (u.endPoll e) := (h.setRxs .off).finish e

theorem setPost (h : Lockstep o s u) (p : PostReport) : Lockstep o (s.setPost p) (u.setPost p) := by
  rw [State.setPost, State.setPost, h.ctx]
  exact h.setCtx _

theorem devReport (h : Lockstep o s u) (k : Nat) : Lockstep o (s.devReport k) (u.devReport k) := by
  rw [State.devReport, State.devReport, h.ctx, h.dev]
  exact h.setCtx _

theorem devReportNone (h : Lockstep o s u) : Lockstep o s.devReportNone u.devReportNone := by
  rw [State.devReportNone, State.devReportNone, h.ctx]
  exact h.setCtx _

/-! ## The longer shared operations -/

theorem encRecord (h : Lockstep o s u) (cmd : Byte) (d : BitVec 32) :
    (s.encRecord cmd d = none ∧ u.encRecord cmd d = none)
      ∨ ∃ bs t v, s.encRecord cmd d = some (bs, t) ∧ u.encRecord cmd d = some (bs, v) ∧ Lockstep o t v := by
  unfold State.encRecord
  rw [h.cfg]
  cases cmdLookup s.cfg cmd with
  | none => exact .inl ⟨rfl, rfl⟩
  | some r =>
    cases hv : encValue r d with
    | some v => exact .inr ⟨recordHeader r ++ v, s, u, by simp only [hv], by simp only [hv], h⟩
    | none =>
      exact .inr ⟨recordHeader r ++ s.valueBytes r.len.toNat, s.afterValueBytes, u.afterValueBytes, by simp only [hv],
        by simp only [hv, h.valueBytes], h.afterValueBytes⟩

theorem getOrCreate (h : Lockstep o s u) (d : BitVec 24) (m p : Byte) (j n : Bool) (ts : BitVec 64) :
    (s.getOrCreate d m p j n ts = none ∧ u.getOrCreate d m p j n ts = none)
      ∨ ∃ k c t v, s.getOrCreate d m p j n ts = some (k, c, t) ∧ u.getOrCreate d m p j n ts = some (k, c, v)
          ∧ Lockstep o t v := by
  unfold State.getOrCreate
  rw [h.lookup, h.devs, h.cfg]
  cases s.lookup d with
  | some k => exact .inr ⟨_, _, _, _, rfl, rfl, h⟩
  | none =>
    simp only
    split_ifs
    · exact .inl ⟨rfl, rfl⟩
    · exact .inr ⟨_, _, _, _, rfl, rfl,
        h.shared (fun v => { v with cfg := s.cfg, devs := s.devs ++ [newDev s.cfg d m p j n ts] }) (fun _ => rfl) rfl⟩

theorem gateTake (h : Lockstep o s u) : ∃ k t v, s.gateTake = (k, t) ∧ u.gateTake = (k, v) ∧ Lockstep o t v := by
  unfold State.gateTake
  rw [h.holdsGate, h.gate, h.initAnswer, h.cfg]
  split_ifs
  · exact ⟨_, _, _, rfl, rfl, h⟩
  · exact ⟨_, _, _, rfl, rfl, h.grantGate⟩
  · exact ⟨_, _, _, rfl, rfl, (h.afterInit.logEvent _).grantGate⟩
  · exact ⟨_, _, _, rfl, rfl, h.afterInit⟩

theorem putBack (h : Lockstep o s u) (k : Taken) : Lockstep o (s.putBack k) (u.putBack k) := by
  unfold State.putBack
  split_ifs
  · exact h.freeGate
  · exact h

theorem drainLoop (n : Nat) : ∀ {s u : State}, Lockstep o s u → Lockstep o (State.drainLoop n s) (State.drainLoop n u) := by
  induction n with
  | zero => exact id
  | succ n ih =>
    intro s u h
    simp only [State.drainLoop, h.ring, h.waitAnswer, h.afterWait.readAnswer, h.now]
    split_ifs
    · exact h
    · cases s.afterWait.readAnswer with
      | err => exact h.afterWait.afterRead
      | ok d => exact ih (h.afterWait.afterRead.setRing _)
    · exact h.afterWait

theorem drain (h : Lockstep o s u) : Lockstep o s.drain u.drain := h.drainLoop 5

theorem sendCached (h : Lockstep o s u) (k : Nat) :
    ∃ sent t v, s.sendCached k = (sent, t) ∧ u.sendCached k = (sent, v) ∧ Lockstep o t v := by
  unfold State.sendCached
  simp only [h.dev, (h.sendOnce k).dev]
  split_ifs
  · exact ⟨_, _, _, rfl, rfl, h.clearCmd k⟩
  · exact ⟨_, _, _, rfl, rfl, (h.sendOnce k).clearCmd k⟩
  · exact ⟨_, _, _, rfl, rfl, h.sendOnce k⟩
  · exact ⟨_, _, _, rfl, rfl, h⟩

theorem thermostatAck (h : Lockstep o s u) (k : Nat) (other : Bool) (ts : BitVec 64) :
    Lockstep o (s.thermostatAck k other ts) (u.thermostatAck k other ts) := by
  have hset := h.setDev k { s.dev k with th := acknowledgedTh s.cfg (s.dev k) ts }
  unfold State.thermostatAck
  simp only [h.dev, h.cfg, (hset.clearCmd k).ctx]
  split_ifs
  · exact (hset.clearCmd k).setPost _
  · exact hset
  · exact h

theorem valveAck (h : Lockstep o s u) (k : Nat) (recs : List DecRec) : Lockstep o (s.valveAck k recs) (u.valveAck k recs) := by
  unfold State.valveAck
  simp only [h.dev, h.cfg, (h.clearCmd k).ctx]
  split_ifs
  · exact (h.clearCmd k).setPost _
  · exact h

theorem autoTelemetry (h : Lockstep o s u) (k : Nat) (wake : Bool) (ts : BitVec 64) :
    Lockstep o (s.autoTelemetry k wake ts) (u.autoTelemetry k wake ts) := by
  unfold State.autoTelemetry
  simp only [h.dev, h.cfg]
  split_ifs
  · rcases h.encRecord s.cfg.cmdThermMode (s.dev k).th.mode with ⟨hs, hu⟩ | ⟨bs, t, v, hs, hu, hv⟩
    · rw [hs, hu]
      exact h
    · rw [hs, hu]
      simp only [hv.nonce, hv.afterNonce.cfg]
      have hattach := hv.afterNonce.attachCmd k t.afterNonce.cfg.cmdThermMode (s.dev k).th.mode t.afterNonce.cfg.autoRetries
        (frameBytes t.afterNonce.cfg.cryptKey (s.dev k).mfr (s.dev k).prod (s.dev k).devid bs t.nonce)
      rw [hattach.ctx]
      exact hattach.setPost _
  · exact h

theorem postProcess (h : Lockstep o s u) (k : Nat) (recs : List DecRec) (ts : BitVec 64) :
    Lockstep o (s.postProcess k recs ts) (u.postProcess k recs ts) := by
  have hpost := h.setPost { PostReport.reset with hasWake := hasPid recs s.cfg.paramWakeup }
  unfold State.postProcess
  simp only [h.dev, h.cfg]
  refine Lockstep.devReport ?_ k
  cases (s.dev k).ext with
  | none => exact hpost
  | valve => exact hpost.valveAck k recs
  | thermostat => exact (hpost.thermostatAck k _ ts).autoTelemetry k _ ts

theorem cacheRecord (h : Lockstep o s u) (k : Nat) (created : Bool) (rec : List Byte) :
    Lockstep o (s.cacheRecord k created rec) (u.cacheRecord k created rec) := by
  have hattach := h.afterNonce.attachCmd k s.afterNonce.ctx.args.cmd s.afterNonce.ctx.args.data s.afterNonce.ctx.args.retries
    (frameBytes s.afterNonce.cfg.cryptKey (s.afterNonce.dev k).mfr (s.afterNonce.dev k).prod s.afterNonce.ctx.args.devid rec
      s.nonce)
  unfold State.cacheRecord
  simp only [h.nonce, h.afterNonce.ctx, h.afterNonce.cfg, h.afterNonce.dev]
  rw [hattach.ctx]
  exact ((hattach.setCtx _).devReport k).finish .ok

theorem cacheUnknown (h : Lockstep o s u) : Lockstep o s.cacheUnknown u.cacheUnknown := by
  unfold State.cacheUnknown
  simp only [h.ctx, h.cfg]
  split_ifs
  · exact h.raise _
  · rcases h.encRecord s.ctx.args.cmd s.ctx.args.data with ⟨hs, hu⟩ | ⟨bs, t, v, hs, hu, hv⟩
    · rw [hs, hu]
      exact h.raise _
    · rw [hs, hu]
      simp only [hv.cfg, hv.now]
      rcases hv.getOrCreate s.ctx.args.devid t.cfg.mfrDefault s.ctx.args.prod false false t.now with
        ⟨ht, hv'⟩ | ⟨k, c, t', v', ht, hv', hnew⟩
      · rw [ht, hv']
        exact hv.setFatal.raise _
      · rw [ht, hv']
        exact hnew.cacheRecord k true bs
  · exact h.raise _

theorem cacheKnown (h : Lockstep o s u) (k : Nat) : Lockstep o (s.cacheKnown k) (u.cacheKnown k) := by
  unfold State.cacheKnown
  simp only [h.ctx, h.dev, (h.clearCmd k).ctx]
  split_ifs
  · exact (((h.clearCmd k).setCtx _).devReport k).finish _
  · rcases h.encRecord s.ctx.args.cmd s.ctx.args.data with ⟨hs, hu⟩ | ⟨bs, t, v, hs, hu, hv⟩
    · rw [hs, hu]
      exact h.raise _
    · rw [hs, hu]
      exact hv.cacheRecord k false bs
  · exact h.raise _

theorem acquireFree (h : Lockstep o s u) : Lockstep o s.acquireFree u.acquireFree := by
  obtain ⟨k, t, v, hs, hu, hv⟩ := h.gateTake
  unfold State.acquireFree
  rw [hs, hu]
  cases k with
  | fail => exact hv.raise _
  | already | taken =>
    simp only [hv.ctx]
    exact (hv.setCtx _).finish _

/-! ## The operations -/

/-- Both outcomes are next states, in lockstep. -/
def Next (o : List Ctx) (x y : Host.Outcome State Fault Refusal) : Prop :=
  ∃ t v, x = .next t ∧ y = .next v ∧ Lockstep o t v

theorem next (h : Lockstep o s u) : Next o (.next s) (.next u) := ⟨s, u, rfl, rfl, h⟩

theorem execCrc16 (h : Lockstep o s u) : Next o (execCrc16 s) (execCrc16 u) := by
  refine Lockstep.next ?_
  simp only [h.ctx]
  split_ifs
  · exact h.raise _
  · exact (h.setCtx _).finish _

theorem execCipher (h : Lockstep o s u) : Next o (execCipher s) (execCipher u) := by
  refine Lockstep.next ?_
  simp only [h.ctx, h.cfg]
  split_ifs
  · exact h.raise _
  · exact (h.setCtx _).finish _

theorem execEncRecord (h : Lockstep o s u) : Next o (execEncRecord s) (execEncRecord u) := by
  refine Lockstep.next ?_
  simp only [h.ctx]
  split_ifs
  · exact h.raise _
  · rcases h.encRecord s.ctx.args.cmd s.ctx.args.data with ⟨hs, hu⟩ | ⟨bs, t, v, hs, hu, hv⟩
    · rw [hs, hu]
      exact h.raise _
    · rw [hs, hu]
      simp only [hv.ctx]
      split_ifs
      · exact hv.raise _
      · exact (hv.setCtx _).finish _

theorem execBuildFrame (h : Lockstep o s u) : Next o (execBuildFrame s) (execBuildFrame u) := by
  refine Lockstep.next ?_
  simp only [h.ctx, h.nonce, h.afterNonce.ctx, h.afterNonce.cfg]
  split_ifs
  · exact h.raise _
  · exact (h.afterNonce.setCtx _).finish _

theorem execDecodeFrame (h : Lockstep o s u) : Next o (execDecodeFrame s) (execDecodeFrame u) := by
  refine Lockstep.next ?_
  simp only [h.ctx, h.cfg]
  split_ifs
  · exact h.raise _
  · exact (h.setCtx _).finish _

theorem execTxFrame (h : Lockstep o s u) : Next o (execTxFrame s) (execTxFrame u) := by
  refine Lockstep.next ?_
  simp only [h.holdsGate, h.ctx]
  split_ifs
  · exact h.raise _
  · exact (h.logEvent _).finish _
  · exact h.raise _

theorem execRbPush (h : Lockstep o s u) : Next o (execRbPush s) (execRbPush u) := by
  refine Lockstep.next ?_
  simp only [h.ctx, h.ring]
  split_ifs
  · exact h.raise _
  · exact (h.setRing _).finish _

theorem execRbPop (h : Lockstep o s u) : Next o (execRbPop s) (execRbPop u) := by
  refine Lockstep.next ?_
  simp only [h.ctx, h.ring]
  cases s.ring.pop with
  | none => exact h.raise _
  | some r => exact ((h.setRing r.2).setCtx _).finish _

theorem execRbPeek (h : Lockstep o s u) : Next o (execRbPeek s) (execRbPeek u) := by
  refine Lockstep.next ?_
  simp only [h.ctx, h.ring]
  cases s.ring.peek s.ctx.args.index.toNat with
  | none => exact h.raise _
  | some e => exact (h.setCtx _).finish _

theorem execRbDrain (h : Lockstep o s u) : Next o (execRbDrain s) (execRbDrain u) := by
  refine Lockstep.next ?_
  rw [h.holdsGate]
  split_ifs
  · exact h.drain.finish _
  · exact h.raise _

theorem execDevCreate (h : Lockstep o s u) : Next o (execDevCreate s) (execDevCreate u) := by
  refine Lockstep.next ?_
  simp only [h.ctx, h.now]
  rcases h.getOrCreate s.ctx.args.devid s.ctx.args.mfr s.ctx.args.prod (s.ctx.args.flags.getLsbD 0)
    (s.ctx.args.flags.getLsbD 1) s.now with ⟨hs, hu⟩ | ⟨k, c, t, v, hs, hu, hv⟩
  · rw [hs, hu]
    exact h.setFatal.raise _
  · rw [hs, hu]
    simp only [hv.ctx]
    exact ((hv.setCtx _).devReport k).finish _

theorem execDevQuery (h : Lockstep o s u) : Next o (execDevQuery s) (execDevQuery u) := by
  refine Lockstep.next ?_
  rw [h.ctx, h.lookup]
  cases s.lookup s.ctx.args.devid with
  | none => exact h.devReportNone.raise _
  | some k => exact (h.devReport k).finish _

theorem execDevList (h : Lockstep o s u) : Next o (execDevList s) (execDevList u) := by
  refine Lockstep.next ?_
  rw [h.ctx, h.devs]
  split_ifs
  · exact h.devReportNone.raise _
  · exact (h.devReport _).finish _

theorem execCacheCmd (h : Lockstep o s u) : Next o (execCacheCmd s) (execCacheCmd u) := by
  refine Lockstep.next ?_
  rw [h.ctx, h.lookup]
  cases s.lookup s.ctx.args.devid with
  | none => exact h.cacheUnknown
  | some k => exact h.cacheKnown k

theorem execTrySend (h : Lockstep o s u) : Next o (execTrySend s) (execTrySend u) := by
  refine Lockstep.next ?_
  simp only [h.holdsGate, h.ctx, h.lookup]
  split_ifs
  · cases s.lookup s.ctx.args.devid with
    | none => exact (h.setCtx _).devReportNone.raise _
    | some k =>
      obtain ⟨sent, t, v, hs, hu, hv⟩ := h.sendCached k
      simp only [hs, hu, hv.ctx]
      exact ((hv.setCtx _).devReport k).finish _
  · exact h.raise _

theorem execPostProcess (h : Lockstep o s u) : Next o (execPostProcess s) (execPostProcess u) := by
  refine Lockstep.next ?_
  rw [h.ctx, h.lookup]
  split_ifs
  · cases s.lookup s.ctx.dec.devid with
    | none => exact h.devReportNone.raise _
    | some k => exact (h.postProcess k _ _).finish _
  · exact h.raise _

theorem execRxPoll (h : Lockstep o s u) : Next o (execRxPoll s) (execRxPoll u) := by
  refine Lockstep.next ?_
  simp only [h.ctx, h.now, h.holdsGate]
  exact h.setCtx _

theorem execGateAcquire (h : Lockstep o s u) : Next o (execGateAcquire s) (execGateAcquire u) := by
  refine Lockstep.next ?_
  simp only [h.ctx, h.gate, h.holdsGate]
  split_ifs
  · exact (h.setCtx _).finish _
  · exact h.setCtx _
  · exact h.acquireFree

theorem execGateRelease (h : Lockstep o s u) : Next o (execGateRelease s) (execGateRelease u) := by
  refine Lockstep.next ?_
  rw [h.holdsGate]
  split_ifs
  · exact h.freeGate.finish _
  · exact h.raise _

theorem execShutdown (h : Lockstep o s u) : Next o (execShutdown s) (execShutdown u) := by
  refine Lockstep.next ?_
  rw [h.holdsGate, h.gate]
  split_ifs
  · exact ((h.logEvent _).setGate _).finish _
  · exact h.raise _

theorem exec (h : Lockstep o s u) (i : Instr) : Next o (exec i s) (exec i u) := by
  cases i with
  | nop => exact (h.finish .ok).next
  | crc16 => exact h.execCrc16
  | cipher => exact h.execCipher
  | encRecord => exact h.execEncRecord
  | buildFrame => exact h.execBuildFrame
  | decodeFrame => exact h.execDecodeFrame
  | txFrame => exact h.execTxFrame
  | rbPush => exact h.execRbPush
  | rbPop => exact h.execRbPop
  | rbPeek => exact h.execRbPeek
  | rbDrain => exact h.execRbDrain
  | devCreate => exact h.execDevCreate
  | devQuery => exact h.execDevQuery
  | devList => exact h.execDevList
  | cacheCmd => exact h.execCacheCmd
  | trySend => exact h.execTrySend
  | postProcess => exact h.execPostProcess
  | rxPoll => exact h.execRxPoll
  | gateAcquire => exact h.execGateAcquire
  | gateRelease => exact h.execGateRelease
  | shutdown => exact h.execShutdown

/-! ## The steps of a waiting context -/

theorem drainingStep (h : Lockstep o s u) : Lockstep o s.drainingStep u.drainingStep := by
  obtain ⟨k, t, v, hs, hu, hv⟩ := h.gateTake
  unfold State.drainingStep
  rw [hs, hu]
  cases k with
  | fail => exact hv.endPoll _
  | already | taken => exact (hv.drain.putBack _).setRxs _

theorem injectStep (h : Lockstep o s u) : Lockstep o s.injectStep u.injectStep := by
  obtain ⟨k, t, v, hs, hu, hv⟩ := h.gateTake
  unfold State.injectStep
  rw [hs, hu]
  cases k with
  | fail => exact hv.endPoll _
  | already | taken =>
    obtain ⟨sent, t', v', ht, hv', hsent⟩ := hv.sendCached t.ctx.poll.dev.toNat
    simp only [hv.ctx, ht, hv', hsent.ctx, ((hsent.setCtx _).putBack _).ctx]
    exact (((hsent.setCtx _).putBack _).postProcess _ _ _).endPoll _

theorem decodeEmpty (h : Lockstep o s u) : Lockstep o s.decodeEmpty u.decodeEmpty := by
  unfold State.decodeEmpty
  simp only [h.ctx, h.now, h.cntActive, h.cntPrecached, h.cfg]
  split
  · exact h.endPoll _
  · exact h.setCtx _

theorem decodeValid (h : Lockstep o s u) (f : DecodedFrame) (ts : BitVec 64) :
    Lockstep o (s.decodeValid f ts) (u.decodeValid f ts) := by
  unfold State.decodeValid
  rcases h.getOrCreate f.devid f.mfr f.prod false true ts with ⟨hs, hu⟩ | ⟨k, c, t, v, hs, hu, hv⟩
  · rw [hs, hu]
    exact h.setFatal.endPoll _
  · rw [hs, hu]
    have hseen : Lockstep o (t.markSeen k) (v.markSeen k) := by
      rw [State.markSeen, State.markSeen, hv.dev]
      exact hv.setDev k _
    have hcreated := hseen.setCtx { (t.markSeen k).ctx with rCreated := c }
    simp only [hseen.ctx, hcreated.ctx]
    have hwanted : (State.setCtx (v.markSeen k) { (t.markSeen k).ctx with rCreated := c }).injectWanted k f.recs
        = (State.setCtx (t.markSeen k) { (t.markSeen k).ctx with rCreated := c }).injectWanted k f.recs := by
      simp only [State.injectWanted, hcreated.dev, hcreated.cntActive, hcreated.cntPrecached, hcreated.cfg]
    rw [hwanted]
    split_ifs
    · exact hcreated.setCtx _
    · exact (hcreated.postProcess k _ _).endPoll _

theorem decodingStep (h : Lockstep o s u) : Lockstep o s.decodingStep u.decodingStep := by
  unfold State.decodingStep
  rw [h.ring]
  cases s.ring.pop with
  | none => exact h.decodeEmpty
  | some r =>
    simp only [h.ctx, h.cfg]
    have hpop := (h.setRing r.2).setCtx ((s.ctx.takeSlot r.1).writeDecode
      (decodeFrame s.cfg.cryptKey (s.ctx.takeSlot r.1).rxBuf (s.ctx.takeSlot r.1).rxLen.toNat))
    generalize decodeFrame s.cfg.cryptKey (s.ctx.takeSlot r.1).rxBuf (s.ctx.takeSlot r.1).rxLen.toNat = d at hpop ⊢
    cases d with
    | frameLen => exact hpop
    | crcMismatch p => exact hpop
    | ok f => exact hpop.decodeValid f _

theorem proceed (h : Lockstep o s u) : Lockstep o s.proceed u.proceed := by
  unfold State.proceed
  rw [h.ctx, h.gate, h.otherHolds, h.now]
  cases s.ctx.poll.rxs with
  | off => exact h
  | gateWait =>
    simp only
    split_ifs
    · exact h
    · exact (h.setRxs _).acquireFree
  | draining =>
    simp only
    split_ifs
    · exact h
    · exact h.drainingStep
  | decoding => exact h.decodingStep
  | inject =>
    simp only
    split_ifs
    · exact h
    · exact h.injectStep
  | idle =>
    simp only
    split_ifs
    · exact h.setRxs _
    · exact h

end State.Lockstep

theorem State.lockstep_graft {s : State} {others : List Ctx} (hcur : s.cur < s.ctxs.length)
    (hlen : others.length = s.ctxs.length) : State.Lockstep others s (s.graft others) :=
  ⟨rfl, hcur, hlen ▸ hcur⟩

/-- Settles O52: each update writes no bank but the issuing one, and runs that differ in the other banks go in lockstep. -/
theorem contextIsolation : Obligations.ContextIsolation := by
  refine ⟨fun s t hstep hne => ?_, fun i s t others hcur hlen hexec => ?_, fun s others hcur hlen => ?_⟩
  · rcases step_cases hstep with ⟨hreset, -⟩ | ⟨d, -, rfl⟩ | ⟨c, hi, -, hedits⟩
    · exact absurd hreset hne
    · exact ⟨rfl, fun _ _ => rfl⟩
    · exact ⟨hedits.cfg_cur_length.2.2, fun n hn => hedits.other_bank fun hnc => hn (hi.trans (congrArg some hnc.symm))⟩
  · obtain ⟨t', v, ht, hv, hlock⟩ := (State.lockstep_graft hcur hlen).exec i
    cases hexec.symm.trans ht
    rw [hv, hlock.eq]
  · exact (State.lockstep_graft hcur hlen).proceed.eq

end Sys2Proof.Machine
end

section
/-! SUPPORT. What a host write stores (20_memory.md R44). -/

namespace Sys2Proof.Machine

/-- A host write has a bank to give exactly if the byte that it names exists (10_state.md R16). -/
theorem Ctx.hostWrite_isSome (c : Ctx) (w : HostWrite) : (c.hostWrite w).isSome = writeExists w := by
  cases w with
  | recByte i v | txByte i v | rxByte i v =>
    simp only [Ctx.hostWrite, writeExists, recMax, frameMax]
    split_ifs with hi <;> simp [hi]
  | _ => rfl

/-- What a read of a byte below `n` finds after a write of another such byte. -/
theorem Memory.byteBelow_write {size n i : Nat} {m : Memory} (h : Memory.wf size m = true) (hi : i < n) (v : Byte) (j : Nat) :
    (if j < n then some (Memory.read (Memory.write m i v) j) else none)
      = if j = i then some v else if j < n then some (Memory.read m j) else none := by
  rw [Memory.read_write h]
  by_cases hj : j = i
  · rw [if_pos hj, if_pos hj, if_pos (hj ▸ hi)]
  · rw [if_neg hj, if_neg hj]

/-- After a host write the named register or byte reads as the value written, and every other one as before (20_memory.md R44). -/
theorem Ctx.hostWrite_readReg {s : State} {c b : Ctx} {w : HostWrite} (hok : c.memOk = true) (h : c.hostWrite w = some b)
    (reg : HostReg) : s.readReg b reg = if reg = writeTarget w then some (writeValue w) else s.readReg c reg := by
  obtain ⟨⟨hrec, htx, hrx, -⟩, -⟩ := Ctx.memOk_iff.1 hok
  cases w with
  | recByte i v | txByte i v | rxByte i v =>
    simp only [Ctx.hostWrite] at h
    split_ifs at h with hi
    cases h
    cases reg with
    | bufByte q j =>
      cases q <;>
        simp [State.readReg, Ctx.bufByte, writeTarget, writeValue, Memory.byteBelow_write hrec hi,
          Memory.byteBelow_write htx hi, Memory.byteBelow_write hrx hi, apply_ite (Option.map BitVec.toNat)]
    | _ => rfl
  | _ =>
    cases h
    cases reg <;> rfl

/-- Taking an input and writing a bank leave the shared registers as they read. -/
theorem State.readReg_setCtx_select (s : State) (n : Nat) (b c : Ctx) (reg : HostReg) :
    ((s.afterInput.select n).setCtx b).readReg c reg = s.readReg c reg := by
  cases reg <;> rfl

theorem step_hostWrite {s : State} {n : Nat} {w : HostWrite} {c : Ctx} (hi : s.nextInput = .hostWrite n w)
    (hc : s.ctxs[n]? = some c) :
    step s = (c.hostWrite w).elim (.fault .noSuchByte) fun b => .next ((s.afterInput.select n).setCtx b) := by
  have hn : s.afterInput.hasCtx n = true := decide_eq_true (List.getElem?_eq_some_iff.1 hc).1
  have hctx : (s.afterInput.select n).ctx = c := State.ctx_of (s := s.afterInput.select n) hc
  rw [step, hi, State.take, State.hostWrite, if_pos hn, hctx]
  cases c.hostWrite w <;> rfl

/-- Settles O9: the write gives the bank that `Ctx.hostWrite` stores into, and no other part of the state. -/
theorem hostWriteOnlyStores : Obligations.HostWriteOnlyStores := by
  intro s n w c hi hc hok
  have hn : n < s.ctxs.length := (List.getElem?_eq_some_iff.1 hc).1
  have hsome := c.hostWrite_isSome w
  rw [step_hostWrite hi hc]
  cases hb : c.hostWrite w with
  | none =>
    rw [hb] at hsome
    exact ⟨fun _ => rfl, fun hw => absurd (hsome.trans hw) nofun⟩
  | some b =>
    rw [hb] at hsome
    obtain ⟨hkeeps, -⟩ := Ctx.hostWrite_keeps hb
    refine ⟨fun hw => absurd (hsome.trans hw) nofun, fun _ =>
      ⟨_, b, rfl, rfl, hkeeps.memOk hok, hkeeps.poll, fun reg => ?_, rfl, rfl⟩⟩
    have hget : ((s.afterInput.select n).setCtx b).ctxs[n]? = some b := List.getElem?_set_self hn
    rw [State.hostRead_eq hget, State.hostRead_eq hc, State.readReg_setCtx_select, Ctx.hostWrite_readReg hok hb]

end Sys2Proof.Machine
end

section
/-! SUPPORT. The operations that leave the registry and the arguments alone: all but the four that create an entry or change a
command. -/

namespace Sys2Proof.Machine

/-- A part of the issuing bank that a write of the bank leaves alone. -/
theorem State.setCtx_ctx_congr {α : Type} (f : Ctx → α) {s : State} {c : Ctx} (h : f c = f s.ctx) :
    f (s.setCtx c).ctx = f s.ctx := by
  by_cases hcur : s.cur < s.ctxs.length
  · rw [State.setCtx_ctx_of_lt hcur, h]
  · rw [State.setCtx, List.set_eq_of_length_le (not_lt.1 hcur)]

/-- From `s` to `t` the registry and the issuing context's arguments are untouched. -/
structure State.Quiet (s t : State) : Prop where
  devs : t.devs = s.devs
  args : t.ctx.args = s.ctx.args

theorem State.Quiet.refl (s : State) : s.Quiet s := ⟨rfl, rfl⟩

theorem State.Quiet.trans {s t u : State} (h : s.Quiet t) (h' : t.Quiet u) : s.Quiet u :=
  ⟨h'.devs.trans h.devs, h'.args.trans h.args⟩

/-- A write of the bank. Left out, `hc` is that of a write that names no argument register. -/
theorem State.Quiet.bank {s t : State} (h : s.Quiet t) {c : Ctx} (hc : c.args = t.ctx.args := by rfl) : s.Quiet (t.setCtx c) :=
  h.trans ⟨rfl, State.setCtx_ctx_congr Ctx.args hc⟩

theorem State.Quiet.finish {s t : State} (h : s.Quiet t) (e : Code) : s.Quiet (t.finish e) := h.bank

theorem State.Quiet.raise {s t : State} (h : s.Quiet t) (e : Code) : s.Quiet (t.raise e) := h.finish e

theorem State.Quiet.devReport {s t : State} (h : s.Quiet t) (k : Nat) : s.Quiet (t.devReport k) := h.bank

theorem State.Quiet.devReportNone {s t : State} (h : s.Quiet t) : s.Quiet t.devReportNone := h.bank

theorem State.Quiet.setRing {s t : State} (h : s.Quiet t) (r : Ring) : s.Quiet (t.setRing r) := ⟨h.devs, h.args⟩

theorem State.Quiet.setGate {s t : State} (h : s.Quiet t) (g : Gate) : s.Quiet (t.setGate g) := ⟨h.devs, h.args⟩

theorem State.Quiet.logEvent {s t : State} (h : s.Quiet t) (e : PortEvent) : s.Quiet (t.logEvent e) := ⟨h.devs, h.args⟩

theorem State.Quiet.afterNonce {s t : State} (h : s.Quiet t) : s.Quiet t.afterNonce := ⟨h.devs, h.args⟩

theorem Ctx.takeSlot_args (c : Ctx) (e : Slot) : (c.takeSlot e).args = c.args := by
  unfold Ctx.takeSlot
  rfl

theorem Ctx.setBuf_args (c : Ctx) (b : BitVec 2) (m : Memory) : (c.setBuf b m).args = c.args := by
  unfold Ctx.setBuf
  split_ifs <;> rfl

theorem Ctx.writeDecode_args (c : Ctx) (d : DecodeResult) : (c.writeDecode d).args = c.args := by
  cases d <;> rfl

theorem State.encRecord_quiet {s t : State} {cmd : Byte} {d : BitVec 32} {bs : List Byte}
    (h : s.encRecord cmd d = some (bs, t)) : s.Quiet t := by
  obtain ⟨q, rfl⟩ := State.encRecord_frame h
  exact ⟨rfl, rfl⟩

theorem State.drain_quiet (s : State) : s.Quiet s.drain := by
  obtain ⟨r, es, q, hd, -⟩ := s.drain_frame
  rw [hd]
  exact ⟨rfl, rfl⟩

theorem State.gateTake_quiet (s : State) : s.Quiet s.gateTake.2 := by
  rcases s.gateTake_cases with ⟨-, ht⟩ | ⟨-, -, ht⟩ | ⟨-, -, -, ht⟩ | ⟨-, -, -, ht⟩
  all_goals
    rw [ht]
    exact ⟨rfl, rfl⟩

theorem State.acquireFree_quiet (s : State) : s.Quiet s.acquireFree := by
  have htake := s.gateTake_quiet
  unfold State.acquireFree
  split
  all_goals
    rename_i heq
    rw [heq] at htake
  · exact htake.raise _
  · exact htake.bank.finish _

/-- `o` answers a next state with the registry and the issuing context's arguments of `s`. -/
def State.QuietIn (s : State) (o : Host.Outcome State Fault Refusal) : Prop := ∃ t, o = .next t ∧ s.Quiet t

theorem State.Quiet.next {s t : State} (h : s.Quiet t) : s.QuietIn (.next t) := ⟨t, rfl, h⟩

theorem execNop_quiet (s : State) : s.QuietIn (execNop s) := ((State.Quiet.refl s).finish _).next

theorem execCrc16_quiet (s : State) : s.QuietIn (execCrc16 s) := by
  refine State.Quiet.next ?_
  split_ifs
  · exact (State.Quiet.refl s).raise _
  · exact (State.Quiet.refl s).bank.finish _

theorem execCipher_quiet (s : State) : s.QuietIn (execCipher s) := by
  refine State.Quiet.next ?_
  split_ifs
  · exact (State.Quiet.refl s).raise _
  · exact ((State.Quiet.refl s).bank (Ctx.setBuf_args _ _ _)).finish _

theorem execEncRecord_quiet (s : State) : s.QuietIn (execEncRecord s) := by
  refine State.Quiet.next ?_
  split_ifs
  · exact (State.Quiet.refl s).raise _
  · split
    · exact (State.Quiet.refl s).raise _
    · rename_i hbs
      have hu := State.encRecord_quiet hbs
      simp only
      split_ifs
      · exact hu.raise _
      · exact hu.bank.finish _

theorem execBuildFrame_quiet (s : State) : s.QuietIn (execBuildFrame s) := by
  refine State.Quiet.next ?_
  split_ifs
  · exact (State.Quiet.refl s).raise _
  · exact (State.Quiet.refl s).afterNonce.bank.finish _

theorem execDecodeFrame_quiet (s : State) : s.QuietIn (execDecodeFrame s) := by
  refine State.Quiet.next ?_
  split_ifs
  · exact (State.Quiet.refl s).raise _
  · exact ((State.Quiet.refl s).bank (Ctx.writeDecode_args _ _)).finish _

theorem execTxFrame_quiet (s : State) : s.QuietIn (execTxFrame s) := by
  refine State.Quiet.next ?_
  split_ifs
  · exact (State.Quiet.refl s).raise _
  · exact ((State.Quiet.refl s).logEvent _).finish _
  · exact (State.Quiet.refl s).raise _

theorem execRbPush_quiet (s : State) : s.QuietIn (execRbPush s) := by
  refine State.Quiet.next ?_
  split_ifs
  · exact (State.Quiet.refl s).raise _
  · exact ((State.Quiet.refl s).setRing _).finish _

theorem execRbPop_quiet (s : State) : s.QuietIn (execRbPop s) := by
  refine State.Quiet.next ?_
  split
  · exact (State.Quiet.refl s).raise _
  · rename_i e r hpop
    exact (((State.Quiet.refl s).setRing r).bank (Ctx.takeSlot_args _ e)).finish _

theorem execRbPeek_quiet (s : State) : s.QuietIn (execRbPeek s) := by
  refine State.Quiet.next ?_
  split
  · exact (State.Quiet.refl s).raise _
  · exact ((State.Quiet.refl s).bank (Ctx.takeSlot_args _ _)).finish _

theorem execRbDrain_quiet (s : State) : s.QuietIn (execRbDrain s) := by
  refine State.Quiet.next ?_
  split_ifs
  · exact s.drain_quiet.finish _
  · exact (State.Quiet.refl s).raise _

theorem execDevQuery_quiet (s : State) : s.QuietIn (execDevQuery s) := by
  refine State.Quiet.next ?_
  split
  · exact (State.Quiet.refl s).devReportNone.raise _
  · exact ((State.Quiet.refl s).devReport _).finish _

theorem execDevList_quiet (s : State) : s.QuietIn (execDevList s) := by
  refine State.Quiet.next ?_
  split_ifs
  · exact (State.Quiet.refl s).devReportNone.raise _
  · exact ((State.Quiet.refl s).devReport _).finish _

theorem execRxPoll_quiet (s : State) : s.QuietIn (execRxPoll s) := (State.Quiet.refl s).bank.next

theorem execGateAcquire_quiet (s : State) : s.QuietIn (execGateAcquire s) := by
  refine State.Quiet.next ?_
  split_ifs
  · exact (State.Quiet.refl s).bank.finish _
  · exact (State.Quiet.refl s).bank
  · exact s.acquireFree_quiet

theorem execGateRelease_quiet (s : State) : s.QuietIn (execGateRelease s) := by
  refine State.Quiet.next ?_
  split_ifs
  · exact ((State.Quiet.refl s).setGate _).finish _
  · exact (State.Quiet.refl s).raise _

theorem execShutdown_quiet (s : State) : s.QuietIn (execShutdown s) := by
  refine State.Quiet.next ?_
  split_ifs
  · exact (((State.Quiet.refl s).logEvent _).setGate _).finish _
  · exact (State.Quiet.refl s).raise _

/-- The operations that can change the registry: they create an entry, or store, send or clear a command (10_state.md R25). -/
def changesRegistry : Instr → Bool
  | .devCreate | .cacheCmd | .trySend | .postProcess => true
  | _ => false

theorem exec_quiet {i : Instr} (s : State) (hi : changesRegistry i = false) : s.QuietIn (exec i s) := by
  cases i with
  | devCreate | cacheCmd | trySend | postProcess => cases hi
  | nop => exact execNop_quiet s
  | crc16 => exact execCrc16_quiet s
  | cipher => exact execCipher_quiet s
  | encRecord => exact execEncRecord_quiet s
  | buildFrame => exact execBuildFrame_quiet s
  | decodeFrame => exact execDecodeFrame_quiet s
  | txFrame => exact execTxFrame_quiet s
  | rbPush => exact execRbPush_quiet s
  | rbPop => exact execRbPop_quiet s
  | rbPeek => exact execRbPeek_quiet s
  | rbDrain => exact execRbDrain_quiet s
  | devQuery => exact execDevQuery_quiet s
  | devList => exact execDevList_quiet s
  | rxPoll => exact execRxPoll_quiet s
  | gateAcquire => exact execGateAcquire_quiet s
  | gateRelease => exact execGateRelease_quiet s
  | shutdown => exact execShutdown_quiet s

end Sys2Proof.Machine
end

section
/-! SUPPORT. Every operation leaves its arguments alone; those of one step are done in it. -/

namespace Sys2Proof.Machine

@[simp] theorem State.finish_args (s : State) (e : Code) : (s.finish e).ctx.args = s.ctx.args :=
  State.setCtx_ctx_congr Ctx.args rfl

@[simp] theorem State.raise_args (s : State) (e : Code) : (s.raise e).ctx.args = s.ctx.args := s.finish_args e

@[simp] theorem State.devReport_args (s : State) (k : Nat) : (s.devReport k).ctx.args = s.ctx.args :=
  State.setCtx_ctx_congr Ctx.args rfl

@[simp] theorem State.devReportNone_args (s : State) : s.devReportNone.ctx.args = s.ctx.args :=
  State.setCtx_ctx_congr Ctx.args rfl

@[simp] theorem State.clearCmd_ctx (s : State) (k : Nat) : (s.clearCmd k).ctx = s.ctx := by
  obtain ⟨e, a, p, h, -⟩ := s.clearCmd_frame k
  rw [h]
  rfl

@[simp] theorem State.sendCached_ctx (s : State) (k : Nat) : (s.sendCached k).2.ctx = s.ctx := by
  obtain ⟨ds, a, p, es, h, -⟩ := s.sendCached_frame k
  rw [h]
  rfl

theorem State.encRecord_ctx {s t : State} {cmd : Byte} {d : BitVec 32} {bs : List Byte}
    (h : s.encRecord cmd d = some (bs, t)) : t.ctx = s.ctx := by
  obtain ⟨q, rfl⟩ := State.encRecord_frame h
  rfl

theorem State.postProcess_args {s : State} (hcur : s.cur < s.ctxs.length) (k : Nat) (recs : List DecRec) (ts : BitVec 64) :
    (s.postProcess k recs ts).ctx.args = s.ctx.args := by
  obtain ⟨t, ⟨ds, a, p, q, post, rfl, -⟩, hpost⟩ := State.postProcess_frame hcur k recs ts
  rw [hpost, State.devReport_args]
  exact State.setCtx_ctx_congr (s := { s with devs := ds, cntActive := a, cntPrecached := p, env := q }) Ctx.args rfl

theorem State.cacheRecord_args (s : State) (k : Nat) (created : Bool) (rec : List Byte) :
    (s.cacheRecord k created rec).ctx.args = s.ctx.args := by
  unfold State.cacheRecord
  simp only [State.finish_args, State.devReport_args]
  exact State.setCtx_ctx_congr Ctx.args rfl

theorem State.cacheUnknown_args (s : State) : s.cacheUnknown.ctx.args = s.ctx.args := by
  unfold State.cacheUnknown
  simp only
  split_ifs
  · exact s.raise_args _
  · split
    · exact s.raise_args _
    · rename_i hbs
      rw [← State.encRecord_ctx hbs]
      split
      · exact State.raise_args _ _
      · rename_i hg
        rw [State.cacheRecord_args, (State.getOrCreate_index hg).2.2]
  · exact s.raise_args _

theorem State.cacheKnown_args (s : State) (k : Nat) : (s.cacheKnown k).ctx.args = s.ctx.args := by
  unfold State.cacheKnown
  simp only
  split_ifs
  · rw [State.finish_args, State.devReport_args, ← s.clearCmd_ctx k]
    exact State.setCtx_ctx_congr Ctx.args rfl
  · split
    · exact s.raise_args _
    · rename_i hbs
      rw [State.cacheRecord_args, State.encRecord_ctx hbs]
  · exact s.raise_args _

/-- `o` answers a next state with the issuing context's arguments of `s`. -/
def State.KeepsArgsIn (s : State) (o : Host.Outcome State Fault Refusal) : Prop := ∃ t, o = .next t ∧ t.ctx.args = s.ctx.args

theorem execDevCreate_args (s : State) : s.KeepsArgsIn (execDevCreate s) := by
  refine ⟨_, rfl, ?_⟩
  simp only
  split
  · exact State.raise_args _ _
  · rename_i hg
    rw [State.finish_args, State.devReport_args, ← (State.getOrCreate_index hg).2.2]
    exact State.setCtx_ctx_congr Ctx.args rfl

theorem execCacheCmd_args (s : State) : s.KeepsArgsIn (execCacheCmd s) := by
  refine ⟨_, rfl, ?_⟩
  split
  · exact s.cacheUnknown_args
  · exact s.cacheKnown_args _

theorem execTrySend_args (s : State) : s.KeepsArgsIn (execTrySend s) := by
  refine ⟨_, rfl, ?_⟩
  split_ifs
  · split
    · simp only [State.raise_args, State.devReportNone_args]
      exact State.setCtx_ctx_congr Ctx.args rfl
    · rename_i k hk
      simp only [State.finish_args, State.devReport_args]
      rw [← s.sendCached_ctx k]
      exact State.setCtx_ctx_congr Ctx.args rfl
  · exact s.raise_args _

theorem execPostProcess_args {s : State} (hcur : s.cur < s.ctxs.length) : s.KeepsArgsIn (execPostProcess s) := by
  refine ⟨_, rfl, ?_⟩
  split_ifs
  · split
    · simp only [State.raise_args, State.devReportNone_args]
    · rw [State.finish_args, State.postProcess_args hcur]
  · exact s.raise_args _

/-- The arguments are the host's: no operation writes them (10_state.md R15, R21). -/
theorem exec_args {s : State} (hcur : s.cur < s.ctxs.length) (i : Instr) : s.KeepsArgsIn (exec i s) := by
  cases hi : changesRegistry i with
  | false =>
    obtain ⟨t, ht, hquiet⟩ := exec_quiet s hi
    exact ⟨t, ht, hquiet.args⟩
  | true =>
    cases i with
    | devCreate => exact execDevCreate_args s
    | cacheCmd => exact execCacheCmd_args s
    | trySend => exact execTrySend_args s
    | postProcess => exact execPostProcess_args hcur
    | _ => cases hi

/-- Settles O5: neither `finish`, which ends the operation, nor an update before it writes the poll state or an argument. -/
theorem singleStepOperationsFinish : Obligations.SingleStepOperationsFinish := by
  intro i s c hc hgate hpoll
  have hcur := State.cur_lt hc
  obtain ⟨t, ht, u, e, hu, rfl⟩ := exec_finishes s hgate hpoll
  obtain ⟨t', ht', hargs⟩ := exec_args hcur i
  cases ht.symm.trans ht'
  rw [State.finish_args] at hargs
  have hbank : (u.finish e).ctxs[s.cur]? = some (u.ctx.done e) := hu.cur_eq ▸ List.getElem?_set_self (hu.cur_lt hcur)
  have hkept : u.ctx.poll = c.poll ∧ u.ctx.args = c.args := State.ctx_of hc ▸ ⟨(hu.poll_busy hcur).1, hargs⟩
  exact ⟨u.finish e, u.ctx.done e, ht, hu.cur_eq, hbank, rfl, hkept⟩

end Sys2Proof.Machine
end

section
/-! SUPPORT. The command that an entry has outstanding (44_retry_sequencer.md R126, R127, R129). Post-processing and the sends of a
step leave it, count its retries down or clear it; only the end of post-processing, auto-telemetry, can store another one. -/

namespace Sys2Proof.Machine

/-- The command that `e'` has outstanding, if any, is that of `e`, with at most its retries. -/
def Dev.NoNewCommand (e e' : Dev) : Prop :=
  e'.cc.pending = true → e.cc.pending = true
    ∧ (e'.cc.frame, e'.cc.flen, e'.cc.cmd, e'.cc.data) = (e.cc.frame, e.cc.flen, e.cc.cmd, e.cc.data)
    ∧ e'.cc.retries.toNat ≤ e.cc.retries.toNat

theorem Dev.NoNewCommand.of_cc {e e' : Dev} (h : e'.cc = e.cc) : e.NoNewCommand e' := by
  intro hpend
  rw [h] at hpend ⊢
  exact ⟨hpend, rfl, le_rfl⟩

theorem Dev.NoNewCommand.trans {e f g : Dev} (h : e.NoNewCommand f) (h' : f.NoNewCommand g) : e.NoNewCommand g := by
  intro hpend
  obtain ⟨hf, hcmd', hle'⟩ := h' hpend
  obtain ⟨he, hcmd, hle⟩ := h hf
  exact ⟨he, hcmd'.trans hcmd, hle'.trans hle⟩

theorem Dev.NoNewCommand.cleared (e f : Dev) : e.NoNewCommand (clearedDev f) := nofun

/-- A send takes one retry (44_retry_sequencer.md R129). -/
theorem Dev.NoNewCommand.sent {e : Dev} (h : e.cc.retries ≠ 0) : e.NoNewCommand (sentDev e) := by
  refine fun hpend => ⟨hpend, rfl, ?_⟩
  show (e.cc.retries - 1).toNat ≤ e.cc.retries.toNat
  bv_omega

/-- From `s` to `t` no entry gets a new command, or more retries for the one it has. -/
structure State.NoNewCommand (s t : State) : Prop where
  cfg_cur_length : t.cfg = s.cfg ∧ t.cur = s.cur ∧ t.ctxs.length = s.ctxs.length
  entry : ∀ (k : Nat) (e : Dev), s.devs[k]? = some e → ∃ e', t.devs[k]? = some e' ∧ e.NoNewCommand e'

namespace State.NoNewCommand

variable {s t : State}

theorem refl (s : State) : s.NoNewCommand s := ⟨⟨rfl, rfl, rfl⟩, fun _ e he => ⟨e, he, .of_cc rfl⟩⟩

theorem trans {u : State} (h : s.NoNewCommand t) (h' : t.NoNewCommand u) : s.NoNewCommand u := by
  obtain ⟨hcfg, hcur, hlen⟩ := h.cfg_cur_length
  obtain ⟨hcfg', hcur', hlen'⟩ := h'.cfg_cur_length
  refine ⟨⟨hcfg'.trans hcfg, hcur'.trans hcur, hlen'.trans hlen⟩, fun k e he => ?_⟩
  obtain ⟨f, hf, hef⟩ := h.entry k e he
  obtain ⟨g, hg, hfg⟩ := h'.entry k f hf
  exact ⟨g, hg, hef.trans hfg⟩

/-- An update that leaves the registry alone. -/
theorem of_devs (hsame : t.cfg = s.cfg ∧ t.cur = s.cur ∧ t.ctxs.length = s.ctxs.length) (hdevs : t.devs = s.devs) :
    s.NoNewCommand t :=
  ⟨hsame, fun _ e he => ⟨e, hdevs ▸ he, .of_cc rfl⟩⟩

/-- An update of the entry `k` alone. -/
theorem of_set (hsame : t.cfg = s.cfg ∧ t.cur = s.cur ∧ t.ctxs.length = s.ctxs.length) {k : Nat} {e' : Dev}
    (hdevs : t.devs = s.devs.set k e') (he' : (s.dev k).NoNewCommand e') : s.NoNewCommand t := by
  refine ⟨hsame, fun j e he => ?_⟩
  rw [hdevs]
  by_cases hjk : k = j
  · subst hjk
    rw [State.dev_of he] at he'
    exact ⟨e', List.getElem?_set_self (List.getElem?_eq_some_iff.1 he).1, he'⟩
  · exact ⟨e, by rw [List.getElem?_set_ne hjk, he], .of_cc rfl⟩

theorem bank (h : s.NoNewCommand t) (c : Ctx) : s.NoNewCommand (t.setCtx c) :=
  h.trans (.of_devs ⟨rfl, rfl, by simp⟩ rfl)

theorem gateTake (s : State) : s.NoNewCommand s.gateTake.2 := by
  rcases s.gateTake_cases with ⟨-, ht⟩ | ⟨-, -, ht⟩ | ⟨-, -, -, ht⟩ | ⟨-, -, -, ht⟩
  all_goals
    rw [ht]
    exact .of_devs ⟨rfl, rfl, rfl⟩ rfl

theorem putBack (h : s.NoNewCommand t) (k : Taken) : s.NoNewCommand (t.putBack k) := by
  refine h.trans ?_
  unfold State.putBack
  split_ifs
  · exact .of_devs ⟨rfl, rfl, rfl⟩ rfl
  · exact .refl t

theorem setPost (h : s.NoNewCommand t) (p : PostReport) : s.NoNewCommand (t.setPost p) := h.bank _

theorem clearCmd (h : s.NoNewCommand t) (k : Nat) : s.NoNewCommand (t.clearCmd k) := by
  obtain ⟨e, a, p, hclear, he⟩ := t.clearCmd_frame k
  rw [hclear]
  refine h.trans (.of_set ⟨rfl, rfl, rfl⟩ rfl ?_)
  rcases he with rfl | rfl
  · exact .of_cc rfl
  · exact .cleared _ _

/-- `sendCached` sends only what has retries left, so the count does not wrap (44_retry_sequencer.md R129). -/
theorem sendCached (h : s.NoNewCommand t) (k : Nat) : s.NoNewCommand (t.sendCached k).2 := by
  cases hout : ((t.dev k).hasCc && (t.dev k).cc.pending) with
  | false =>
    rw [State.sendCached_idle hout]
    exact h
  | true =>
    by_cases hz : (t.dev k).cc.retries = 0
    · rw [State.sendCached_spent rfl hout hz]
      exact h.clearCmd k
    · have hget := State.dev_get_of_hasCc (Bool.and_eq_true_iff.1 hout).1
      rw [State.sendCached_sends hget hout hz]
      refine h.trans (.of_set ⟨rfl, rfl, rfl⟩ rfl ?_)
      split_ifs
      · exact .cleared _ _
      · exact .sent hz

theorem getOrCreate {u : State} (h : s.NoNewCommand t) {d : BitVec 24} {m p : Byte} {j n : Bool} {ts : BitVec 64} {k : Nat}
    {created : Bool} (hg : t.getOrCreate d m p j n ts = some (k, created, u)) : s.NoNewCommand u := by
  rcases t.getOrCreate_cases d m p j n ts with ⟨_, -, hk⟩ | ⟨-, -, hk⟩ | ⟨-, -, hk⟩
  all_goals
    rw [hk] at hg
    cases hg
  · exact h
  · refine h.trans ⟨⟨rfl, rfl, rfl⟩, fun i e he => ⟨e, ?_, .of_cc rfl⟩⟩
    exact (List.getElem?_append_left (List.getElem?_eq_some_iff.1 he).1).trans he

theorem markSeen (h : s.NoNewCommand t) (k : Nat) : s.NoNewCommand (t.markSeen k) :=
  h.trans (.of_set ⟨rfl, rfl, rfl⟩ rfl (.of_cc rfl))

theorem thermostatAck (h : s.NoNewCommand t) (k : Nat) (other : Bool) (ts : BitVec 64) :
    s.NoNewCommand (t.thermostatAck k other ts) := by
  have hth : s.NoNewCommand (t.setDev k { t.dev k with th := acknowledgedTh t.cfg (t.dev k) ts }) :=
    h.trans (.of_set ⟨rfl, rfl, rfl⟩ rfl (.of_cc rfl))
  unfold State.thermostatAck
  simp only
  split_ifs
  · exact (hth.clearCmd k).setPost _
  · exact hth
  · exact h

theorem valveAck (h : s.NoNewCommand t) (k : Nat) (recs : List DecRec) : s.NoNewCommand (t.valveAck k recs) := by
  unfold State.valveAck
  simp only
  split_ifs
  · exact (h.clearCmd k).setPost _
  · exact h

end State.NoNewCommand

/-- From `s` to `t` the one command that an entry can get is the set-mode command of auto-telemetry, and R_AUTOCACHED reports it
(44_retry_sequencer.md R135). -/
def State.OnlyAutoCaches (s t : State) : Prop :=
  ∀ (k : Nat) (e : Dev), s.devs[k]? = some e → ∃ e', t.devs[k]? = some e' ∧
    (e.NoNewCommand e' ∨ (e'.cc.cmd = s.cfg.cmdThermMode ∧ e'.cc.retries = s.cfg.autoRetries ∧ t.ctx.post.autoCached = true))

namespace State.OnlyAutoCaches

variable {s t : State}

theorem of_noNew (h : s.NoNewCommand t) : s.OnlyAutoCaches t := fun k e he =>
  have ⟨e', he', hkeep⟩ := h.entry k e he
  ⟨e', he', .inl hkeep⟩

theorem of_devs (h : t.devs = s.devs) : s.OnlyAutoCaches t := fun _ e he => ⟨e, h ▸ he, .inl (.of_cc rfl)⟩

/-- It is a matter of the registry and the configuration that `s` starts with. -/
theorem from_registry {u : State} (hdevs : u.devs = s.devs) (hcfg : u.cfg = s.cfg) (h : u.OnlyAutoCaches t) :
    s.OnlyAutoCaches t := by
  intro k e he
  rw [← hcfg]
  exact h k e (hdevs ▸ he)

/-- Updates without a new command may come first. -/
theorem after {u : State} (h : s.NoNewCommand t) (h' : t.OnlyAutoCaches u) : s.OnlyAutoCaches u := by
  intro k e he
  obtain ⟨f, hf, hef⟩ := h.entry k e he
  obtain ⟨g, hg, hfg⟩ := h' k f hf
  rw [h.cfg_cur_length.1] at hfg
  exact ⟨g, hg, hfg.imp_left hef.trans⟩

/-- A write of the bank that leaves R_AUTOCACHED alone may come last. -/
theorem bank (h : s.OnlyAutoCaches t) {c : Ctx} (hc : c.post = t.ctx.post := by rfl) : s.OnlyAutoCaches (t.setCtx c) := by
  intro k e he
  obtain ⟨e', he', hcmd⟩ := h k e he
  rw [← State.setCtx_ctx_congr Ctx.post hc] at hcmd
  exact ⟨e', he', hcmd⟩

theorem finish (h : s.OnlyAutoCaches t) (e : Code) : s.OnlyAutoCaches (t.finish e) := h.bank

theorem endPoll (h : s.OnlyAutoCaches t) (e : Code) : s.OnlyAutoCaches (t.endPoll e) := h.bank.finish e

theorem devReport (h : s.OnlyAutoCaches t) (k : Nat) : s.OnlyAutoCaches (t.devReport k) := h.bank

theorem autoTelemetry (hcur : s.cur < s.ctxs.length) (k : Nat) (wake : Bool) (ts : BitVec 64) :
    s.OnlyAutoCaches (s.autoTelemetry k wake ts) := by
  unfold State.autoTelemetry
  simp only
  split_ifs
  · split
    · exact .of_devs rfl
    · rename_i r u hr
      obtain ⟨q, rfl⟩ := State.encRecord_frame hr
      intro j e he
      by_cases hkj : k = j
      · subst hkj
        refine ⟨_, List.getElem?_set_self (List.getElem?_eq_some_iff.1 he).1, .inr ⟨rfl, rfl, ?_⟩⟩
        rw [State.setPost, State.setCtx_ctx_of_lt (by exact hcur)]
      · exact ⟨e, (List.getElem?_set_ne hkj).trans he, .inl (.of_cc rfl)⟩
  · exact .of_devs rfl

/-- Post-processing acknowledges first, which caches nothing, and ends with auto-telemetry (44_retry_sequencer.md R132). -/
theorem postProcess (h : s.NoNewCommand t) (hcur : s.cur < s.ctxs.length) (k : Nat) (recs : List DecRec) (ts : BitVec 64) :
    s.OnlyAutoCaches (t.postProcess k recs ts) := by
  have hpost := h.setPost { PostReport.reset with hasWake := hasPid recs t.cfg.paramWakeup }
  unfold State.postProcess
  refine devReport ?_ k
  split
  · have hack := hpost.thermostatAck k (hasOther t.cfg recs) ts
    obtain ⟨-, hcur', hlen⟩ := hack.cfg_cur_length
    exact .after hack (autoTelemetry (by rwa [hcur', hlen]) k _ ts)
  · exact .of_noNew (hpost.valveAck k recs)
  · exact .of_noNew hpost

end State.OnlyAutoCaches

/-! ## The operations -/

theorem execDevCreate_onlyAutoCaches {s t : State} (h : execDevCreate s = .next t) : s.OnlyAutoCaches t := by
  rw [execDevCreate, Host.Outcome.next.injEq] at h
  subst h
  simp only
  split
  · exact .of_devs rfl
  · rename_i hg
    exact .of_noNew (((((State.NoNewCommand.refl s).getOrCreate hg).bank _).bank _).bank _)

theorem execTrySend_onlyAutoCaches {s t : State} (h : execTrySend s = .next t) : s.OnlyAutoCaches t := by
  rw [execTrySend, Host.Outcome.next.injEq] at h
  subst h
  split_ifs
  · split
    · exact .of_devs rfl
    · rename_i k hk
      exact .of_noNew (((((State.NoNewCommand.refl s).sendCached k).bank _).bank _).bank _)
  · exact .of_devs rfl

theorem execPostProcess_onlyAutoCaches {s t : State} (hcur : s.cur < s.ctxs.length) (h : execPostProcess s = .next t) :
    s.OnlyAutoCaches t := by
  rw [execPostProcess, Host.Outcome.next.injEq] at h
  subst h
  split_ifs
  · split
    · exact .of_devs rfl
    · exact (State.OnlyAutoCaches.postProcess (.refl s) hcur _ _ _).finish _
  · exact .of_devs rfl

/-- CACHE_CMD is the one operation that stores any other command (44_retry_sequencer.md R128). -/
theorem exec_onlyAutoCaches {i : Instr} {s t : State} (hcur : s.cur < s.ctxs.length) (hcache : i ≠ .cacheCmd)
    (h : exec i s = .next t) : s.OnlyAutoCaches t := by
  cases hi : changesRegistry i with
  | false =>
    obtain ⟨u, hu, hquiet⟩ := exec_quiet s hi
    cases h.symm.trans hu
    exact .of_devs hquiet.devs
  | true =>
    cases i with
    | devCreate => exact execDevCreate_onlyAutoCaches h
    | cacheCmd => exact absurd rfl hcache
    | trySend => exact execTrySend_onlyAutoCaches h
    | postProcess => exact execPostProcess_onlyAutoCaches hcur h
    | _ => cases hi

/-! ## The steps of a waiting context -/

theorem State.putBack_devs (s : State) (k : Taken) : (s.putBack k).devs = s.devs := by
  unfold State.putBack
  split_ifs <;> rfl

theorem State.drainingStep_devs (s : State) : s.drainingStep.devs = s.devs := by
  have htake := s.gateTake_quiet
  unfold State.drainingStep
  split
  all_goals
    rename_i heq
    rw [heq] at htake
  · exact htake.devs
  · exact (State.putBack_devs _ _).trans (htake.trans (State.drain_quiet _)).devs

theorem State.decodeEmpty_devs (s : State) : s.decodeEmpty.devs = s.devs := by
  unfold State.decodeEmpty
  simp only
  split_ifs <;> rfl

theorem State.decodeValid_onlyAutoCaches {s t : State} (h : s.NoNewCommand t) (hcur : s.cur < s.ctxs.length) (f : DecodedFrame)
    (ts : BitVec 64) : s.OnlyAutoCaches (t.decodeValid f ts) := by
  unfold State.decodeValid
  split
  · exact .of_noNew (h.trans (.of_devs ⟨rfl, rfl, by simp [State.endPoll, State.finish]⟩ rfl))
  · rename_i k created u hg
    have hseen := (((h.getOrCreate hg).markSeen k).bank { (u.markSeen k).ctx with rCreated := created })
    simp only
    split_ifs
    · exact .of_noNew (hseen.bank _)
    · exact (State.OnlyAutoCaches.postProcess hseen hcur _ _ _).endPoll _

theorem State.decodingStep_onlyAutoCaches {s : State} (hcur : s.cur < s.ctxs.length) : s.OnlyAutoCaches s.decodingStep := by
  unfold State.decodingStep
  split
  · exact .of_devs s.decodeEmpty_devs
  · rename_i e r hpop
    extract_lets c d t
    clear_value d
    have hpopped : s.NoNewCommand t := .of_devs ⟨rfl, rfl, by simp [t]⟩ rfl
    split
    · exact .of_noNew hpopped
    · exact .of_noNew hpopped
    · exact State.decodeValid_onlyAutoCaches hpopped hcur _ _

theorem State.injectStep_onlyAutoCaches {s : State} (hcur : s.cur < s.ctxs.length) : s.OnlyAutoCaches s.injectStep := by
  have htake := State.NoNewCommand.gateTake s
  unfold State.injectStep
  split
  all_goals
    rename_i heq
    rw [heq] at htake
  · exact (State.OnlyAutoCaches.of_noNew htake).endPoll _
  · exact (State.OnlyAutoCaches.postProcess (((htake.sendCached _).bank _).putBack _) hcur _ _ _).endPoll _

theorem State.proceed_onlyAutoCaches {s : State} (hcur : s.cur < s.ctxs.length) : s.OnlyAutoCaches s.proceed := by
  have hhold : s.OnlyAutoCaches s := .of_devs rfl
  unfold State.proceed
  cases s.ctx.poll.rxs with
  | off => exact hhold
  | gateWait =>
    simp only
    split_ifs
    · exact hhold
    · exact .of_devs (State.acquireFree_quiet _).devs
  | draining =>
    simp only
    split_ifs
    · exact hhold
    · exact .of_devs s.drainingStep_devs
  | decoding => exact State.decodingStep_onlyAutoCaches hcur
  | inject =>
    simp only
    split_ifs
    · exact hhold
    · exact State.injectStep_onlyAutoCaches hcur
  | idle =>
    simp only
    split_ifs
    · exact .of_devs rfl
    · exact hhold

/-! ## The command word -/

theorem eq_opCode_of_decodeOp {n : Nat} {i : Instr} (h : decodeOp n = some i) : n = (opCode i).toNat := by
  unfold decodeOp at h
  split at h <;> cases h <;> rfl

/-- A word selects only the operation that it encodes (30_encoding.md R54 to R56). -/
theorem eq_encode_of_decode {w : Word} {i : Instr} (h : decode w = .ok i) : w = encode i := by
  unfold decode at h
  split_ifs at h with hrsv
  split at h
  · rename_i j hop
    cases h
    have hcode := eq_opCode_of_decodeOp hop
    apply BitVec.eq_of_toNat_eq
    simp only [rsvField, opField, BitVec.extractLsb'_toNat, Nat.shiftRight_eq_div_pow] at hrsv hcode
    simp only [encode, BitVec.toNat_setWidth]
    have hw := w.isLt
    omega
  · cases h

/-- A command word performs the operation that it encodes, or ends as illegal (30_encoding.md R55, R57). -/
theorem State.command_encode {s t : State} {c : Nat} {w : Word} (h : s.command c w = .next t) :
    t = (s.select c).begun.illegal ∨ ∃ i, w = encode i ∧ exec i (s.select c).begun = .next t := by
  unfold State.command State.beginCommand at h
  split_ifs at h
  simp only at h
  split at h
  · rename_i i hi
    exact .inr ⟨i, eq_encode_of_decode hi, h⟩
  · cases h
    exact .inl rfl

theorem State.command_onlyAutoCaches {s t : State} {c : Nat} {w : Word} (hw : w ≠ 0x23#32) (h : s.command c w = .next t) :
    s.OnlyAutoCaches t := by
  obtain ⟨hc, -⟩ := State.command_next h
  rcases State.command_encode h with rfl | ⟨i, rfl, hexec⟩
  · exact .of_devs rfl
  · have hcache : i ≠ .cacheCmd := fun hi => hw (hi ▸ rfl)
    have hcur : (s.select c).begun.cur < (s.select c).begun.ctxs.length := by simpa [State.begun] using hc
    exact .from_registry (u := (s.select c).begun) rfl rfl (exec_onlyAutoCaches hcur hcache hexec)

/-- What a step that is no reset and no CACHE_CMD can do to the outstanding commands. -/
theorem step_onlyAutoCaches {s t : State} (h : step s = .next t) (hreset : s.nextInput ≠ .reset)
    (hcache : ∀ n, s.nextInput ≠ .command n 0x23#32) : s.OnlyAutoCaches t := by
  refine .from_registry (u := s.afterInput) rfl rfl ?_
  unfold step at h
  cases hi : s.nextInput with
  | reset => exact absurd hi hreset
  | tick d =>
    rw [hi] at h
    cases h
    exact .of_devs rfl
  | hostWrite c w =>
    rw [hi] at h
    obtain ⟨-, b, -, rfl⟩ := State.hostWrite_next h
    exact .of_devs rfl
  | command c w =>
    rw [hi] at h
    exact State.command_onlyAutoCaches (fun hw => hcache c (hw ▸ hi)) h
  | proceed c =>
    rw [hi] at h
    obtain ⟨hc, rfl⟩ := State.proceedAs_next h
    exact .from_registry (u := s.afterInput.select c) rfl rfl (State.proceed_onlyAutoCaches hc)

/-- Settles O60: of what a step can do to an entry's command, only auto-telemetry leaves one outstanding that is not the old one. -/
theorem retriesNeverIncrease : Obligations.RetriesNeverIncrease := by
  intro s t k e e' hstep hreset hcache he he' _ hpend
  obtain ⟨f, hf, hkept⟩ := step_onlyAutoCaches hstep hreset hcache k e he
  cases he'.symm.trans hf
  exact hkept.imp_left fun hcmd => (hcmd hpend).2

end Sys2Proof.Machine
end

section
/-! SUPPORT. Command words (30_encoding.md R54 to R57): the two fields as numbers, which codes the opcode map leaves out, and what
the write of a command word to an idle and to a busy context does. -/

namespace Sys2Proof

/-! ## The fields of a command word -/

theorem opField_eq (w : Word) : opField w = w.toNat % 256 := by
  simp [opField, BitVec.extractLsb'_toNat]

theorem rsvField_eq (w : Word) : rsvField w = w.toNat / 256 := by
  have hw := w.isLt
  simp only [rsvField, BitVec.extractLsb'_toNat, Nat.shiftRight_eq_div_pow]
  omega

theorem encode_toNat (i : Instr) : (encode i).toNat = (opCode i).toNat := by
  have hcode := (opCode i).isLt
  simp only [encode, BitVec.toNat_setWidth]
  omega

theorem opField_encode (i : Instr) : opField (encode i) = (opCode i).toNat := by
  rw [opField_eq, encode_toNat, Nat.mod_eq_of_lt (opCode i).isLt]

theorem rsvField_encode (i : Instr) : rsvField (encode i) = 0 := by
  rw [rsvField_eq, encode_toNat, Nat.div_eq_of_lt (opCode i).isLt]

/-! ## The opcode map -/

theorem decodeOp_opCode (i : Instr) : decodeOp (opCode i).toNat = some i := by
  cases i <;> rfl

/-- The four gaps of the map (30_encoding.md R57). -/
theorem decodeOp_eq_none_iff {n : Nat} :
    decodeOp n = none ↔
      (0x07 ≤ n ∧ n ≤ 0x0F) ∨ (0x14 ≤ n ∧ n ≤ 0x1F) ∨ (0x27 ≤ n ∧ n ≤ 0x2F) ∨ 0x33 ≤ n := by
  unfold decodeOp
  split
  case h_22 =>
    simp only [imp_false, true_iff] at *
    omega
  all_goals simp

theorem decode_encode (i : Instr) : decode (encode i) = .ok i := by
  rw [decode, if_pos (rsvField_encode i), opField_encode, decodeOp_opCode]

theorem decode_eq_error_iff {w : Word} :
    (∃ e, decode w = .error e) ↔ rsvField w ≠ 0 ∨ decodeOp (opField w) = none := by
  unfold decode
  split_ifs with hrsv
  · cases decodeOp (opField w) <;> simp [hrsv]
  · simp [hrsv]

/-- Settles O1: the map from operations to codes inverts the decoder on both sides. -/
theorem decodeIffEncode : Obligations.DecodeIffEncode := by
  intro w i
  constructor
  · exact Machine.eq_encode_of_decode
  · rintro rfl
    exact decode_encode i

/-- Settles O2: each word is the encoding of the operation that the map gives it. -/
theorem decodeWords : Obligations.DecodeWords :=
  ⟨decode_encode .nop, decode_encode .crc16, decode_encode .buildFrame, decode_encode .decodeFrame, decode_encode .rbPop,
    decode_encode .cacheCmd, decode_encode .rxPoll, decode_encode .gateAcquire, decode_encode .shutdown⟩

end Sys2Proof

namespace Sys2Proof.Machine

/-! ## The write of a command word -/

section
variable {s : State} {n : Nat} {w : Word} {c : Ctx}

/-- The write of a command word to an idle context sets BUSY before anything else happens (30_encoding.md R55). -/
theorem State.beginCommand_idle (hc : s.ctxs[n]? = some c) (hidle : c.busy = false) :
    s.beginCommand n = .ok ((s.select n).setCtx { c with busy := true }) := by
  have hn : s.hasCtx n = true := decide_eq_true (List.getElem?_eq_some_iff.1 hc).1
  have hctx : (s.select n).ctx = c := State.ctx_of (s := s.select n) hc
  simp [State.beginCommand, hn, hctx, hidle]

/-- A busy context takes no command word (60_exceptions.md R158). -/
theorem State.beginCommand_busy (hc : s.ctxs[n]? = some c) (hbusy : c.busy = true) :
    s.beginCommand n = .error .commandWhileBusy := by
  have hn : s.hasCtx n = true := decide_eq_true (List.getElem?_eq_some_iff.1 hc).1
  have hctx : (s.select n).ctx = c := State.ctx_of (s := s.select n) hc
  simp [State.beginCommand, hn, hctx, hbusy]

theorem step_command (hi : s.nextInput = .command n w) : step s = s.afterInput.command n w := by
  rw [step, hi, State.take]

theorem step_command_legal {i : Instr} (hi : s.nextInput = .command n w) (hc : s.ctxs[n]? = some c) (hidle : c.busy = false)
    (hw : decode w = .ok i) : step s = exec i ((s.afterInput.select n).setCtx { c with busy := true }) := by
  rw [step_command hi, State.command, State.beginCommand_idle (s := s.afterInput) hc hidle, hw]

/-- An illegal word ends in `ILLEGAL_OP`: of the bank, only CODE and BUSY are written (30_encoding.md R57). -/
theorem step_command_illegal {e : DecodeError} (hi : s.nextInput = .command n w) (hc : s.ctxs[n]? = some c)
    (hidle : c.busy = false) (hw : decode w = .error e) :
    step s = .next ((s.afterInput.select n).setCtx (c.done .illegalOp)) := by
  have hn : n < s.ctxs.length := (List.getElem?_eq_some_iff.1 hc).1
  have hend := State.setCtx_finish (s := s.afterInput.select n) hn { c with busy := true } .illegalOp
  rw [step_command hi, State.command, State.beginCommand_idle (s := s.afterInput) hc hidle, hw]
  exact congrArg Host.Outcome.next hend

theorem step_command_busy (hi : s.nextInput = .command n w) (hc : s.ctxs[n]? = some c) (hbusy : c.busy = true) :
    step s = .fault .commandWhileBusy := by
  rw [step_command hi, State.command, State.beginCommand_busy (s := s.afterInput) hc hbusy]

end

/-- A word lined up by `withFetchWord` is the next input (log 17). -/
theorem State.withFetchWord_nextInput (s : State) (w : Nat) :
    (s.withFetchWord 32 w).nextInput = .command 0 (BitVec.ofNat 32 w) := by
  have hword : BitVec.ofNat 32 (w % 2 ^ 32) = BitVec.ofNat 32 w := BitVec.eq_of_toNat_eq (by simp)
  rw [← hword]
  rfl

/-- Settles O3: the illegal words are those with a code in a gap of the map or with reserved bits, and each ends in `ILLEGAL_OP`. -/
theorem illegalWords : Obligations.IllegalWords := by
  refine ⟨fun w => ?_, fun s n w c hi hc hidle ⟨e, hw⟩ => step_command_illegal hi hc hidle hw⟩
  rw [decode_eq_error_iff, decodeOp_eq_none_iff, rsvField_eq, opField_eq]

/-- Settles O4, by the three cases of a command word's write. -/
theorem stepRunsDecoded : Obligations.StepRunsDecoded :=
  ⟨fun _ _ _ _ _ hi hc hidle hw => step_command_legal hi hc hidle hw,
    fun _ _ _ _ hi hc hbusy => step_command_busy hi hc hbusy,
    fun s w => ⟨s.withFetchWord_nextInput w, rfl⟩⟩

end Sys2Proof.Machine
end

section
/-! SUPPORT. The functions `crc16` and `crypt` (40_crc_cipher.md sections 1 and 2). The key fact about `crypt` is that it is a map
over the indexed bytes, byte `i` XOR keystream byte `i`: from it come the data independence, the symmetry and the zero seed. -/

namespace Sys2Proof.Machine

/-! ## The CRC register -/

/-- One more byte at the end is one more byte into the register (40_crc_cipher.md R74). -/
theorem crc16_append_singleton (bs : List Byte) (b : Byte) : crc16 (bs ++ [b]) = crcByte (crc16 bs) b := by
  simp [crc16]

/-- A zero byte shifts zeros through a register at 0 (40_crc_cipher.md R75). -/
theorem crcByte_zero_zero : crcByte 0 0 = 0 := by decide

theorem crc16_replicate_zero (n : Nat) : crc16 (List.replicate n 0) = 0 := by
  induction n with
  | zero => rfl
  | succ n ih => rw [List.replicate_succ', crc16_append_singleton, ih, crcByte_zero_zero]

/-- Settles O11, by the recursion over the bytes and, for the fixed sequences, by evaluation. -/
theorem crcCornerCases : Obligations.CrcCornerCases :=
  ⟨crc16_append_singleton, rfl, crc16_replicate_zero, by decide +kernel, by decide, by decide⟩

/-! ## The seed and the round of the cipher -/

theorem cipherSeed_toNat (key : Byte) (pip : BitVec 16) : (cipherSeed key pip).toNat = (key.toNat * 256) ^^^ pip.toNat := by
  have hshift : (key.setWidth 16 <<< 8 : BitVec 16).toNat = key.toNat * 256 := by
    simp [Nat.shiftLeft_eq]
    omega
  rw [cipherSeed, BitVec.toNat_xor, hshift]

theorem cipherSeed_eq_zero_iff {key : Byte} {pip : BitVec 16} : cipherSeed key pip = 0 ↔ pip = key.setWidth 16 <<< 8 :=
  BitVec.xor_eq_zero_iff.trans eq_comm

theorem cipherBit_toNat (r : BitVec 16) :
    (cipherBit r).toNat = if r.toNat % 2 = 1 then (r.toNat / 2) ^^^ 0xF5B5 else r.toNat / 2 := by
  have hbit : r.getLsbD 0 = decide (r.toNat % 2 = 1) := Nat.testBit_zero _
  have hshift : (r >>> 1).toNat = r.toNat / 2 := Nat.shiftRight_one _
  simp only [cipherBit, hbit, decide_eq_true_eq]
  split_ifs
  · rw [BitVec.toNat_xor, hshift, BitVec.toNat_ofNat]
  · exact hshift

/-- A round reaches 0 from 0 only: of an odd `r` it keeps bit 15, which `r >> 1` has clear and 0xF5B5 has set; of an even one it
keeps every bit that is set (40_crc_cipher.md R81). -/
theorem cipherBit_eq_zero_iff (r : BitVec 16) : cipherBit r = 0 ↔ r = 0 := by
  refine ⟨fun h => BitVec.eq_of_toNat_eq ?_, fun h => by rw [h]; rfl⟩
  have hzero : (0 : BitVec 16).toNat = 0 := rfl
  have hround := cipherBit_toNat r
  rw [h, hzero] at hround
  rw [hzero]
  split_ifs at hround with hodd
  · have hhalf : r.toNat / 2 = 0xF5B5 := Nat.xor_eq_zero_iff.1 hround.symm
    omega
  · omega

theorem iterate_cipherBit_eq_zero_iff (n : Nat) (r : BitVec 16) : Nat.iterate cipherBit n r = 0 ↔ r = 0 := by
  induction n with
  | zero => rfl
  | succ n ih => rw [Function.iterate_succ_apply', cipherBit_eq_zero_iff, ih]

/-! ## The keystream -/

/-- Keystream byte `i` from cipher state `r` on (40_crc_cipher.md R79). -/
def keystreamFrom (r : BitVec 16) (i : Nat) : Byte := (Nat.iterate cipherBit (5 * (i + 1)) r).setWidth 8 ^^^ 0x5A#8

theorem keyByte_eq_keystreamFrom (key : Byte) (pip : BitVec 16) : keyByte key pip = keystreamFrom (cipherSeed key pip) := rfl

/-- The five rounds of one byte move the keystream on by one byte. -/
theorem keystreamFrom_cipherRounds (r : BitVec 16) (i : Nat) : keystreamFrom (cipherRounds r) i = keystreamFrom r (i + 1) := by
  rw [keystreamFrom, cipherRounds, ← Function.iterate_add_apply, keystreamFrom, Nat.mul_succ 5 (i + 1)]

theorem keystreamFrom_zero (i : Nat) : keystreamFrom 0 i = 0x5A#8 := by
  rw [keystreamFrom, (iterate_cipherBit_eq_zero_iff _ 0).2 rfl]
  rfl

theorem cryptFrom_eq_mapIdx (bs : List Byte) : ∀ r, cryptFrom r bs = bs.mapIdx fun i b => b ^^^ keystreamFrom r i := by
  induction bs with
  | nil => intro r; rfl
  | cons b bs ih =>
    intro r
    have hfirst : (cipherRounds r).setWidth 8 ^^^ b ^^^ 0x5A#8 = b ^^^ keystreamFrom r 0 := by
      rw [BitVec.xor_comm _ b, BitVec.xor_assoc]
      rfl
    simp only [cryptFrom, List.mapIdx_cons, ih, hfirst, keystreamFrom_cipherRounds]

/-- Byte `i` of `crypt` is byte `i` of the data XOR `K(pip, i)` (40_crc_cipher.md R79). -/
theorem crypt_eq_mapIdx (key : Byte) (pip : BitVec 16) (bs : List Byte) :
    crypt key pip bs = bs.mapIdx fun i b => b ^^^ keyByte key pip i :=
  cryptFrom_eq_mapIdx bs _

theorem crypt_getElem? (key : Byte) (pip : BitVec 16) (bs : List Byte) (i : Nat) :
    (crypt key pip bs)[i]? = bs[i]?.map (· ^^^ keyByte key pip i) := by
  rw [crypt_eq_mapIdx, List.getElem?_mapIdx]

/-- Settles O12: the seed and the round as numbers, the vectors by evaluation, and `crypt` byte by byte. -/
theorem keystreamIndependentOfData : Obligations.KeystreamIndependentOfData := by
  refine ⟨cipherSeed_toNat, cipherBit_toNat, fun _ _ _ => rfl, by decide, by decide, by decide, by decide, fun key pip bs => ?_⟩
  refine ⟨crypt_length key pip bs, fun i b hb => ?_⟩
  rw [crypt_getElem?, hb, Option.map_some]

/-- Settles O13: XOR with one keystream byte twice gives the byte back. -/
theorem cipherSymmetry : Obligations.CipherSymmetry := by
  intro key pip bs
  refine List.ext_getElem? fun i => ?_
  rw [crypt_getElem?, crypt_getElem?, Option.map_map]
  have htwice : (· ^^^ keyByte key pip i) ∘ (· ^^^ keyByte key pip i) = (id : Byte → Byte) :=
    funext fun b => by simp
  rw [htwice, Option.map_id, id]

/-- Settles O14: a round reaches 0 from 0 only, so the state is 0 after any number of rounds exactly if the seed is. -/
theorem zeroSeed : Obligations.ZeroSeed := by
  refine fun key pip => ⟨cipherSeed_eq_zero_iff, fun hseed => ?_, fun hseed i => (iterate_cipherBit_eq_zero_iff i _).not.2 hseed⟩
  have hkey (i : Nat) : keyByte key pip i = 0x5A#8 := by
    rw [keyByte_eq_keystreamFrom, hseed, keystreamFrom_zero]
  refine ⟨fun i => (iterate_cipherBit_eq_zero_iff i _).2 hseed, hkey, fun bs => List.ext_getElem? fun i => ?_⟩
  rw [crypt_getElem?, hkey, List.getElem?_map]

end Sys2Proof.Machine
end

section
/-! SUPPORT. The operations CRC16 and CIPHER (40_crc_cipher.md section 3). Both check the range against the selected buffer first;
the two cases of that check are the two cases of each result. -/

namespace Sys2Proof.Machine

/-! ## The range operand -/

theorem rangePastEnd_iff {a : Args} : rangePastEnd a = true ↔ bufSize a.bufSelect < a.off.toNat + a.len.toNat :=
  decide_eq_true_iff

theorem Ctx.buf_select (c : Ctx) : c.buf 0 = c.recBuf ∧ c.buf 1 = c.txBuf ∧ c.buf 2 = c.rxBuf ∧ c.buf 3 = c.plainBuf :=
  ⟨rfl, rfl, rfl, rfl⟩

theorem Ctx.setBuf_select (c : Ctx) (m : Memory) :
    c.setBuf 0 m = { c with recBuf := m } ∧ c.setBuf 1 m = { c with txBuf := m } ∧ c.setBuf 2 m = { c with rxBuf := m }
      ∧ c.setBuf 3 m = { c with plainBuf := m } :=
  ⟨rfl, rfl, rfl, rfl⟩

/-- The bytes of the range, ciphered (40_crc_cipher.md R83). -/
def Ctx.cipheredRange (c : Ctx) (key : Byte) : List Byte := crypt key c.args.pip c.rangeBytes

theorem Ctx.cipheredRange_length (c : Ctx) (key : Byte) : (c.cipheredRange key).length = c.args.len.toNat := by
  simp [Ctx.cipheredRange, Ctx.rangeBytes]

/-- The keystream starts at the first byte of the range, whatever A_OFF is (40_crc_cipher.md R83). -/
theorem Ctx.cipheredRange_getElem? {c : Ctx} {key : Byte} {i : Nat} {b : Byte} (hb : (c.cipheredRange key)[i]? = some b) :
    b = Memory.read (c.buf c.args.bufSelect) (c.args.off.toNat + i) ^^^ keyByte key c.args.pip i := by
  have hi : i < c.args.len.toNat := c.cipheredRange_length key ▸ (List.getElem?_eq_some_iff.1 hb).1
  rw [Ctx.cipheredRange, crypt_getElem?, Ctx.rangeBytes, Memory.readRange_getElem? _ _ _ _ hi] at hb
  exact (Option.some.inj hb).symm

/-! ## The operations -/

section
variable {s : State} {c : Ctx}

theorem execCrc16_badOperand (hc : s.ctxs[s.cur]? = some c) (hrange : rangePastEnd c.args = true) :
    execCrc16 s = .next (s.setCtx (c.done .badOperand)) := by
  have hctx := State.ctx_of hc
  rw [execCrc16, hctx, if_pos hrange, State.raise_eq hctx]

theorem execCrc16_ok (hc : s.ctxs[s.cur]? = some c) (hrange : ¬ rangePastEnd c.args = true) :
    execCrc16 s = .next (s.setCtx (Ctx.done { c with rCrc := crc16 c.rangeBytes } .ok)) := by
  rw [execCrc16, State.ctx_of hc, if_neg hrange, State.setCtx_finish (State.cur_lt hc)]

theorem execCipher_badOperand (hc : s.ctxs[s.cur]? = some c) (hrange : rangePastEnd c.args = true) :
    execCipher s = .next (s.setCtx (c.done .badOperand)) := by
  have hctx := State.ctx_of hc
  rw [execCipher, hctx, if_pos hrange, State.raise_eq hctx]

theorem execCipher_ok (hc : s.ctxs[s.cur]? = some c) (hrange : ¬ rangePastEnd c.args = true) :
    execCipher s = .next (s.setCtx ((c.setBuf c.args.bufSelect
      (Memory.writeRange (c.buf c.args.bufSelect) c.args.off.toNat (c.cipheredRange s.cfg.cryptKey))).done .ok)) := by
  rw [execCipher, State.ctx_of hc, if_neg hrange, State.setCtx_finish (State.cur_lt hc), Ctx.cipheredRange]

end

/-- Settles O15, by the two cases of the range check. -/
theorem crc16Result : Obligations.Crc16Result :=
  ⟨decode_encode .crc16, Ctx.buf_select, fun _ _ hc =>
    ⟨fun hin => execCrc16_ok hc (rangePastEnd_iff.not.2 hin.not_gt), fun hpast => execCrc16_badOperand hc (rangePastEnd_iff.2 hpast)⟩⟩

/-- Settles O16: CIPHER stores the ciphered range over the range that it read, and a range past the end is not touched. -/
theorem cipherResult : Obligations.CipherResult := by
  refine ⟨decode_encode .cipher, Ctx.setBuf_select, Ctx.buf_select, fun s c hc => ⟨fun hwf hin => ?_, fun hpast => ?_⟩⟩
  · refine ⟨_, c.cipheredRange s.cfg.cryptKey, execCipher_ok hc (rangePastEnd_iff.not.2 hin.not_gt), c.cipheredRange_length _,
      fun i b hb => Ctx.cipheredRange_getElem? hb, Memory.stored_writeRange ?_ hwf⟩
    rwa [Ctx.cipheredRange_length]
  · exact execCipher_badOperand hc (rangePastEnd_iff.2 hpast)

end Sys2Proof.Machine
end

section
/-! SUPPORT. The value bytes of an encoded record (41_frame_encoder.md R84 to R86) as integers and as rationals: the big-endian value
of a byte string, rounding toward zero, and the integer that in-range bytes encode. -/

namespace Sys2Proof.Machine

/-! ## Big-endian values -/

theorem beNat_append_singleton (bs : List Byte) (b : Byte) : beNat (bs ++ [b]) = beNat bs * 256 + b.toNat := by
  simp [beNat]

/-- The first byte is the most significant one (00_scope.md R9). -/
theorem beNat_cons (b : Byte) (bs : List Byte) : beNat (b :: bs) = b.toNat * 256 ^ bs.length + beNat bs := by
  induction bs using List.reverseRecOn with
  | nil => simp [beNat]
  | append_singleton bs x ih =>
    rw [← List.cons_append, beNat_append_singleton, ih, beNat_append_singleton, List.length_append, List.length_singleton]
    ring

theorem beNat_lt (bs : List Byte) : beNat bs < 256 ^ bs.length := by
  induction bs with
  | nil => simp [beNat]
  | cons b bs ih =>
    have hb : b.toNat + 1 ≤ 256 := b.isLt
    calc beNat (b :: bs) < (b.toNat + 1) * 256 ^ bs.length := by rw [beNat_cons]; linarith
      _ ≤ 256 ^ (b :: bs).length := by rw [List.length_cons, pow_succ']; gcongr

theorem pow_256_eq_two_pow (n : Nat) : 256 ^ n = 2 ^ (8 * n) := by rw [pow_mul]; rfl

theorem beNat_beBytes (n v : Nat) : beNat (beBytes n v) = v % 256 ^ n := by
  induction n with
  | zero => simp [beBytes, beNat, Nat.mod_one]
  | succ n ih =>
    have hhead : (BitVec.ofNat 8 (v / 256 ^ n)).toNat = v / 256 ^ n % 256 := BitVec.toNat_ofNat _ _
    rw [beBytes, beNat_cons, beBytes_length, ih, hhead, pow_succ, Nat.mod_mul]
    ring

/-- The top bit of the first byte is the top bit of the big-endian value. -/
theorem headD_ge_iff {v : List Byte} (hv : 0 < v.length) : 128 ≤ (v.headD 0).toNat ↔ 2 ^ (8 * v.length - 1) ≤ beNat v := by
  cases v with
  | nil => simp at hv
  | cons b bs =>
    have htop : 2 ^ (8 * (b :: bs).length - 1) = 128 * 256 ^ bs.length := by
      rw [List.length_cons, show 8 * (bs.length + 1) - 1 = 7 + 8 * bs.length by omega, pow_add, pow_256_eq_two_pow]
      norm_num
    have hlow := beNat_lt bs
    rw [htop, beNat_cons, List.headD_cons]
    constructor
    · intro hb
      exact (Nat.mul_le_mul_right _ hb).trans (Nat.le_add_right _ _)
    · intro hb
      by_contra! hlt
      have : (b.toNat + 1) * 256 ^ bs.length ≤ 128 * 256 ^ bs.length := Nat.mul_le_mul_right _ hlt
      linarith

/-! ## The integer that value bytes encode (30_encoding.md R68) -/

theorem typeSigned_iff {t : BitVec 4} : typeSigned t = true ↔ 8 ≤ t.toNat ∧ t.toNat ≤ 11 := by
  simp [typeSigned]

theorem wireInt_of_unsigned {t : BitVec 4} (ht : typeSigned t = false) (v : List Byte) : wireInt t v = beNat v := by
  rw [wireInt, if_neg]
  rw [← typeSigned_iff, ht]
  simp

theorem wireInt_of_signed {t : BitVec 4} (ht : typeSigned t = true) {v : List Byte} (hv : 0 < v.length) :
    wireInt t v = if 2 ^ (8 * v.length - 1) ≤ beNat v then (beNat v : ℤ) - 2 ^ (8 * v.length) else beNat v := by
  simp only [wireInt, typeSigned_iff.1 ht, headD_ge_iff hv, and_self, true_and]

/-- `n` is in the range of a value of `len` bytes (41_frame_encoder.md R85). -/
def ValueRange (signed : Bool) (len : Nat) (n : ℤ) : Prop :=
  if signed then -2 ^ (8 * len - 1) ≤ n ∧ n < 2 ^ (8 * len - 1) else 0 ≤ n ∧ n < 2 ^ (8 * len)

theorem inRange_iff {n : ℤ} {len : Nat} {signed : Bool} : inRange n len signed = true ↔ ValueRange signed len n := by
  cases signed <;> simp [inRange, ValueRange]

/-- The value bytes of an in-range `n`: its two's-complement pattern, most significant byte first (41_frame_encoder.md R85). -/
def valuePattern (len : Nat) (n : ℤ) : List Byte := beBytes len (n % 2 ^ (8 * len)).toNat

theorem valuePattern_length (len : Nat) (n : ℤ) : (valuePattern len n).length = len := beBytes_length _ _

theorem beNat_valuePattern (len : Nat) (n : ℤ) : (beNat (valuePattern len n) : ℤ) = n % 2 ^ (8 * len) := by
  have hpos : (0 : ℤ) < 2 ^ (8 * len) := by positivity
  have hnonneg := Int.emod_nonneg n hpos.ne'
  have hlt := Int.emod_lt_of_pos n hpos
  have hfits : (n % 2 ^ (8 * len)).toNat < 2 ^ (8 * len) := by
    rw [Int.toNat_lt hnonneg]
    exact_mod_cast hlt
  rw [valuePattern, beNat_beBytes, pow_256_eq_two_pow, Nat.mod_eq_of_lt hfits]
  exact Int.toNat_of_nonneg hnonneg

/-- The pattern of an in-range integer encodes that integer: modulo `2^(8 len)` only a negative one changes, by one period. -/
theorem wireInt_valuePattern {t : BitVec 4} {len : Nat} {n : ℤ} (hlen : 0 < len) (hn : ValueRange (typeSigned t) len n) :
    wireInt t (valuePattern len n) = n := by
  have hbe := beNat_valuePattern len n
  have hl := valuePattern_length len n
  cases ht : typeSigned t with
  | false =>
    rw [ht] at hn
    obtain ⟨hlow, hhigh⟩ : 0 ≤ n ∧ n < 2 ^ (8 * len) := by simpa [ValueRange] using hn
    rw [wireInt_of_unsigned ht, hbe, Int.emod_eq_of_lt hlow hhigh]
  | true =>
    rw [ht] at hn
    obtain ⟨hlow, hhigh⟩ : -2 ^ (8 * len - 1) ≤ n ∧ n < 2 ^ (8 * len - 1) := by simpa [ValueRange] using hn
    have hperiod : (2 : ℤ) ^ (8 * len) = 2 * 2 ^ (8 * len - 1) := by
      rw [← pow_succ', show 8 * len - 1 + 1 = 8 * len by omega]
    have htop : 2 ^ (8 * len - 1) ≤ beNat (valuePattern len n) ↔ (2 : ℤ) ^ (8 * len - 1) ≤ n % 2 ^ (8 * len) := by
      rw [← hbe]; norm_cast
    rw [wireInt_of_signed ht (hl.symm ▸ hlen), hl, hbe]
    simp only [htop]
    rcases lt_or_ge n 0 with hneg | hnonneg
    · have hmod : n % 2 ^ (8 * len) = n + 2 ^ (8 * len) := by
        rw [← Int.add_emod_right, Int.emod_eq_of_lt] <;> linarith
      rw [hmod, if_pos (by linarith)]
      ring
    · rw [Int.emod_eq_of_lt hnonneg (by linarith), if_neg (by linarith)]

/-! ## Rounding toward zero (41_frame_encoder.md R84) -/

/-- The quotient of naturals is their ratio rounded toward zero. -/
theorem isTrunc_natDiv (a : Nat) {b : Nat} (hb : 0 < b) : isTrunc (a / b : ℚ) ((a / b : Nat) : ℤ) := by
  have hbq : (0 : ℚ) < b := by exact_mod_cast hb
  have hle : ((a / b : Nat) : ℚ) ≤ a / b := Nat.cast_div_le
  have hlt : (a / b : ℚ) < ((a / b : Nat) : ℚ) + 1 := by
    rw [div_lt_iff₀ hbq]
    exact_mod_cast Nat.lt_mul_of_div_lt (Nat.lt_succ_self _) hb
  have hnonneg : (0 : ℚ) ≤ ((a / b : Nat) : ℚ) := Nat.cast_nonneg _
  refine ⟨?_, ?_, ?_⟩
  · rw [Int.cast_natCast, abs_of_nonneg (by linarith)]
    linarith
  · rw [Int.cast_natCast, abs_of_nonneg hnonneg]
    exact hle.trans (le_abs_self _)
  · rw [Int.cast_natCast]
    positivity

theorem isTrunc.neg {x : ℚ} {n : ℤ} (h : isTrunc x n) : isTrunc (-x) (-n) := by
  obtain ⟨hdist, habs, hsign⟩ := h
  refine ⟨?_, ?_, ?_⟩
  · rwa [Int.cast_neg, neg_sub_neg, abs_sub_comm]
  · rwa [Int.cast_neg, abs_neg, abs_neg]
  · rwa [Int.cast_neg, neg_mul_neg]

/-- The magnitude of a finite pattern as the model holds it: the significand times a power of two. -/
def dataMagnitude (d : BitVec 32) : ℚ := (dataSignificand d : ℚ) * 2 ^ dataExponent d / 2 ^ 150

theorem dataValue_eq (d : BitVec 32) : dataValue d = if d.getLsbD 31 then -dataMagnitude d else dataMagnitude d := by
  unfold dataValue dataMagnitude dataSignificand dataExponent
  by_cases he : (d.extractLsb' 23 8).toNat = 0
  · have hsubnormal (f : ℚ) : f / 2 ^ 149 = f * 2 ^ 1 / 2 ^ 150 := by ring
    simp only [he, if_true, hsubnormal]
  · simp only [he, if_false, Nat.cast_add, Nat.cast_pow, Nat.cast_ofNat]

/-- `scaledData` is the value times `2^BP` rounded toward zero. -/
theorem scaledData_isTrunc (d : BitVec 32) (bp : Nat) : isTrunc (dataValue d * 2 ^ bp) (scaledData d bp) := by
  have hmag := isTrunc_natDiv (dataSignificand d * 2 ^ (dataExponent d + bp)) (b := 2 ^ 150) (by positivity)
  have hscale : ((dataSignificand d * 2 ^ (dataExponent d + bp) : Nat) : ℚ) / (2 ^ 150 : Nat) = dataMagnitude d * 2 ^ bp := by
    rw [dataMagnitude, Nat.cast_mul, Nat.cast_pow, Nat.cast_pow, Nat.cast_ofNat, pow_add]
    ring
  rw [hscale] at hmag
  rw [dataValue_eq, scaledData]
  split_ifs
  · rw [neg_mul]
    exact hmag.neg
  · exact hmag

/-- A float view `n / 2^BP` of the rounded value differs from the value by less than `2^-BP`, and has its sign or is 0
(41_frame_encoder.md R89). -/
theorem isTrunc.unscale {x : ℚ} {bp : Nat} {n : ℤ} (h : isTrunc (x * 2 ^ bp) n) : |x - n / 2 ^ bp| < 1 / 2 ^ bp ∧ 0 ≤ x * n := by
  obtain ⟨hdist, -, hsign⟩ := h
  have hpos : (0 : ℚ) < 2 ^ bp := by positivity
  constructor
  · have hx : x - n / 2 ^ bp = (x * 2 ^ bp - n) / 2 ^ bp := by field_simp
    rw [hx, abs_div, abs_of_pos hpos]
    gcongr
  · have hx : x * n = x * 2 ^ bp * n / 2 ^ bp := by field_simp
    rw [hx]
    exact div_nonneg hsign hpos.le

/-! ## The value bytes -/

section
variable {r : CmdRow} {d : BitVec 32}

theorem dataIsNonFinite_iff : dataIsNonFinite d = true ↔ d.extractLsb' 23 8 = 255#8 := by
  simp [dataIsNonFinite, BitVec.toNat_eq]

/-- The integer that a row sends for a data value (41_frame_encoder.md R84). -/
def sentInt (r : CmdRow) (d : BitVec 32) : ℤ := scaledData d (typeBp (intTypeCode r.type))

theorem sentInt_isTrunc (r : CmdRow) (d : BitVec 32) : isTrunc (dataValue d * 2 ^ typeBp (intTypeCode r.type)) (sentInt r d) :=
  scaledData_isTrunc d _

theorem encValue_of_len_zero (hlen : r.len = 0) (d : BitVec 32) : encValue r d = some [] := by
  rw [encValue, if_pos hlen]

theorem encValue_of_nonFinite (hlen : r.len ≠ 0) (hd : d.extractLsb' 23 8 = 255#8) : encValue r d = none := by
  rw [encValue, if_neg hlen, if_pos (dataIsNonFinite_iff.2 hd)]

theorem encValue_of_inRange (hlen : r.len ≠ 0) (hd : d.extractLsb' 23 8 ≠ 255#8)
    (hn : ValueRange (typeSigned (intTypeCode r.type)) r.len.toNat (sentInt r d)) :
    encValue r d = some (valuePattern r.len.toNat (sentInt r d)) := by
  rw [encValue, if_neg hlen, if_neg (dataIsNonFinite_iff.not.2 hd)]
  exact if_pos (inRange_iff.2 hn)

theorem encValue_of_outOfRange (hlen : r.len ≠ 0) (hd : d.extractLsb' 23 8 ≠ 255#8)
    (hn : ¬ ValueRange (typeSigned (intTypeCode r.type)) r.len.toNat (sentInt r d)) : encValue r d = none := by
  rw [encValue, if_neg hlen, if_neg (dataIsNonFinite_iff.not.2 hd)]
  exact if_neg (inRange_iff.not.2 hn)

/-- Value bytes that are not drawn encode the integer that the row sends. -/
theorem wireInt_encValue {v : List Byte} (hlen : r.len ≠ 0) (h : encValue r d = some v) :
    wireInt (intTypeCode r.type) v = sentInt r d := by
  by_cases hd : d.extractLsb' 23 8 = 255#8
  · simp [encValue_of_nonFinite hlen hd] at h
  by_cases hn : ValueRange (typeSigned (intTypeCode r.type)) r.len.toNat (sentInt r d)
  · rw [encValue_of_inRange hlen hd hn] at h
    rw [← Option.some.inj h]
    exact wireInt_valuePattern (Nat.pos_of_ne_zero fun hz => hlen (BitVec.eq_of_toNat_eq hz)) hn
  · simp [encValue_of_outOfRange hlen hd hn] at h

end

/-- Settles O17: the tables by evaluation, and the value bytes by the cases of R85 and R86: no byte, no number, in range or not. -/
theorem encodedValue : Obligations.EncodedValue := by
  refine ⟨by decide, by decide, fun r d => ⟨fun hlen => encValue_of_len_zero hlen d, encValue_of_nonFinite, fun hlen hd => ?_⟩⟩
  refine ⟨sentInt r d, sentInt_isTrunc r d, fun hn => ?_, encValue_of_outOfRange hlen hd⟩
  have hv := encValue_of_inRange hlen hd hn
  exact ⟨_, hv, valuePattern_length _ _, beNat_valuePattern _ _, wireInt_encValue hlen hv⟩

end Sys2Proof.Machine
end

section
/-! SUPPORT. Records in a plaintext (42_frame_decoder.md R97 to R104): what `recordAt` and `parseRecords` make of records on the
wire. A position of the plaintext is described by the bytes from it on, so a walk over records is a walk over their list. -/

namespace Sys2Proof.Machine

/-! ## A record on the wire -/

theorem WireRecord.ok_iff {r : WireRecord} : r.ok = true ↔ r.pid ≠ 0 ∧ r.value.length ≤ 15 := by
  simp [WireRecord.ok]

@[simp] theorem WireRecord.bytes_length (r : WireRecord) : r.bytes.length = r.value.length + 2 := by
  simp [WireRecord.bytes]

/-- A byte read past `i` is a byte of what stands from `i` on. -/
theorem getD_add_of_drop {p q : List Byte} {i : Nat} (h : p.drop i = q) (k : Nat) : p.getD (i + k) 0 = q.getD k 0 := by
  rw [← h, List.getD_eq_getElem?_getD, List.getD_eq_getElem?_getD, List.getElem?_drop]

/-- The record stands in the plaintext `p` at index `i`. -/
def WireRecord.At (r : WireRecord) (p : List Byte) (i : Nat) : Prop := ∃ rest, p.drop i = r.bytes ++ rest

section
variable {r : WireRecord} {p : List Byte} {i : Nat}

theorem WireRecord.At.byte_zero (h : r.At p i) : p.getD i 0 = BitVec.ofBool r.cf ++ r.pid := by
  obtain ⟨rest, h⟩ := h
  exact getD_add_of_drop h 0

theorem WireRecord.At.byte_one (h : r.At p i) : p.getD (i + 1) 0 = r.type ++ BitVec.ofNat 4 r.value.length := by
  obtain ⟨rest, h⟩ := h
  exact getD_add_of_drop h 1

theorem WireRecord.At.len (h : r.At p i) (hlen : r.value.length ≤ 15) :
    ((p.getD (i + 1) 0).extractLsb' 0 4).toNat = r.value.length := by
  rw [h.byte_one, BitVec.extractLsb'_append_eq_right, BitVec.toNat_ofNat]
  omega

theorem WireRecord.At.value (h : r.At p i) :
    (List.range r.value.length).map (fun j => p.getD (i + 2 + j) 0) = r.value := by
  obtain ⟨rest, h⟩ := h
  refine List.ext_getElem (by simp) fun j hj hj' => ?_
  have hbyte : p.getD (i + (2 + j)) 0 = (r.value ++ rest).getD j 0 := by
    rw [getD_add_of_drop h, Nat.add_comm 2 j]
    rfl
  rw [List.getElem_map, List.getElem_range, Nat.add_assoc, hbyte, List.getD_append _ _ _ _ hj', List.getD_eq_getElem _ _ hj']

end

/-! ## The decoded record (42_frame_decoder.md R99 to R104) -/

/-- The decoder's sign test is the one of 30_encoding.md R68. -/
theorem signBit_iff {t : BitVec 4} {v : List Byte} :
    (typeSigned t && decide (0 < v.length) && (v.getD 0 0).getLsbD 7) = true
      ↔ (8 ≤ t.toNat ∧ t.toNat ≤ 11) ∧ 128 ≤ (v.headD 0).toNat := by
  cases v with
  | nil => simp
  | cons b bs =>
    have htop : b.getLsbD 7 = decide (128 ≤ b.toNat) := BitVec.msb_eq_decide b
    rw [List.getD_cons_zero, List.headD_cons, htop]
    simp [typeSigned_iff]

theorem wireInt_bounds (t : BitVec 4) (v : List Byte) :
    -2 ^ (8 * v.length) ≤ wireInt t v ∧ wireInt t v < 2 ^ (8 * v.length) := by
  have hlt : (beNat v : ℤ) < 2 ^ (8 * v.length) := by exact_mod_cast pow_256_eq_two_pow v.length ▸ beNat_lt v
  unfold wireInt
  split_ifs <;> constructor <;> linarith

/-- A value of at most 15 bytes fits the 128 bits of IVAL. -/
theorem toInt_ofInt_wireInt (t : BitVec 4) {v : List Byte} (hv : v.length ≤ 15) :
    (BitVec.ofInt 128 (wireInt t v)).toInt = wireInt t v := by
  obtain ⟨hlow, hhigh⟩ := wireInt_bounds t v
  have hpow : (2 : ℤ) ^ (8 * v.length) ≤ 2 ^ (128 - 1) := pow_le_pow_right₀ (by norm_num) (by omega)
  exact BitVec.toInt_ofInt_eq_self (by norm_num) ((neg_le_neg hpow).trans hlow) (hhigh.trans_le hpow)

/-- The binary points of the type table fit the 5 bits of BP. -/
theorem typeBp_lt (t : BitVec 4) : typeBp t < 32 := by
  revert t; decide

/-- `recordAt` decodes a record on the wire as the rules say. -/
theorem recordAt_describes {r : WireRecord} {p : List Byte} {i : Nat} (h : r.At p i) (hlen : r.value.length ≤ 15)
    (hi : i + 2 < 128) : (recordAt p i).Describes r (i + 2) := by
  have htype : (p.getD (i + 1) 0).extractLsb' 4 4 = r.type := by rw [h.byte_one, BitVec.extractLsb'_append_eq_left]
  have hcf : (p.getD i 0).getLsbD 7 = r.cf := by
    rw [h.byte_zero, BitVec.getLsbD_append]
    simp
  simp only [DecRec.Describes, recordAt, h.len hlen, htype, h.value, hcf, signBit_iff, true_and, and_true]
  refine ⟨?_, ?_, toInt_ofInt_wireInt r.type hlen, ?_⟩
  · rw [h.byte_zero, BitVec.extractLsb'_append_eq_right]
  · rw [BitVec.toNat_ofNat, Nat.mod_eq_of_lt hi]
  · rw [BitVec.toNat_ofNat, Nat.mod_eq_of_lt (typeBp_lt _)]

/-! ## The walk over the records (42_frame_decoder.md R97, R98) -/

section
variable {p : List Byte} {stop i : Nat}

/-- A zero param id is the terminator. -/
theorem parseRecords_of_terminator (h : (p.getD i 0).extractLsb' 0 7 = 0) (fuel : Nat) : parseRecords p stop fuel i = [] := by
  cases fuel with
  | zero => rfl
  | succ fuel => rw [parseRecords, if_pos h, ite_self]

/-- A record that ends by `stop` is taken, and the walk goes on behind it. -/
theorem parseRecords_of_record {r : WireRecord} (h : r.At p i) (hok : r.ok = true) (hstop : i + r.bytes.length ≤ stop)
    (fuel : Nat) : parseRecords p stop (fuel + 1) i = recordAt p i :: parseRecords p stop fuel (i + r.bytes.length) := by
  obtain ⟨hpid, hlen⟩ := WireRecord.ok_iff.1 hok
  rw [WireRecord.bytes_length] at hstop ⊢
  have hid : (p.getD i 0).extractLsb' 0 7 = r.pid := by rw [h.byte_zero, BitVec.extractLsb'_append_eq_right]
  rw [parseRecords, if_neg (by omega), hid, if_neg hpid, if_neg (by omega)]
  simp only [h.len hlen]
  rw [if_neg (by omega), Nat.add_right_comm, ← Nat.add_assoc]

end

theorem decodedAs_nil (i : Nat) : DecodedAs [] [] i := ⟨rfl, fun k r h => by simp at h⟩

theorem decodedAs_cons {d : DecRec} {r : WireRecord} {out : List DecRec} {rs : List WireRecord} {i : Nat}
    (hd : d.Describes r (i + 2)) (h : DecodedAs out rs (i + r.bytes.length)) : DecodedAs (d :: out) (r :: rs) i := by
  obtain ⟨hlen, hrec⟩ := h
  refine ⟨congrArg (· + 1) hlen, fun k q hq => ?_⟩
  cases k with
  | zero =>
    obtain rfl : r = q := Option.some.inj hq
    exact ⟨d, rfl, hd⟩
  | succ k =>
    obtain ⟨e, he, hdesc⟩ := hrec k q hq
    refine ⟨e, he, ?_⟩
    rwa [List.take_succ_cons, List.flatMap_cons, List.length_append, ← Nat.add_assoc]

/-- A list of records at `i`, behind which the walk stops, decodes to exactly those records. -/
theorem parseRecords_decodedAs {p rest : List Byte} {stop : Nat} (hstop : stop < 128) (rs : List WireRecord) :
    ∀ {i fuel : Nat}, (∀ r ∈ rs, r.ok = true) → p.drop i = rs.flatMap WireRecord.bytes ++ rest →
      i + (rs.flatMap WireRecord.bytes).length ≤ stop → rs.length ≤ fuel →
      (∀ fuel, parseRecords p stop fuel (i + (rs.flatMap WireRecord.bytes).length) = []) →
      DecodedAs (parseRecords p stop fuel i) rs i := by
  induction rs with
  | nil =>
    intro i fuel _ _ _ _ hend
    rw [show parseRecords p stop fuel i = [] from hend fuel]
    exact decodedAs_nil i
  | cons r rs ih =>
    intro i fuel hok hdrop hfits hfuel hend
    obtain ⟨fuel, rfl⟩ : ∃ m, fuel = m + 1 := ⟨fuel - 1, by simp at hfuel; omega⟩
    obtain ⟨hr, hrs⟩ := List.forall_mem_cons.1 hok
    rw [List.flatMap_cons, List.length_append, ← Nat.add_assoc] at hfits hend
    rw [List.flatMap_cons, List.append_assoc] at hdrop
    have hat : r.At p i := ⟨_, hdrop⟩
    have htail : p.drop (i + r.bytes.length) = rs.flatMap WireRecord.bytes ++ rest := by
      rw [← List.drop_drop, hdrop, List.drop_left]
    rw [parseRecords_of_record hat hr (by omega)]
    refine decodedAs_cons (recordAt_describes hat (WireRecord.ok_iff.1 hr).2 ?_) (ih hrs htail hfits (by simpa using hfuel) hend)
    rw [WireRecord.bytes_length] at hfits
    omega

/-- A record takes at least two bytes. -/
theorem length_le_flatMap_bytes (rs : List WireRecord) : 2 * rs.length ≤ (rs.flatMap WireRecord.bytes).length := by
  induction rs with
  | nil => simp
  | cons r rs ih =>
    simp only [List.flatMap_cons, List.length_append, List.length_cons, WireRecord.bytes_length]
    omega

/-! ## A record that was encoded -/

theorem WireRecord.at_bytes (r : WireRecord) : r.At r.bytes 0 := ⟨[], by simp⟩

/-- Settles O18: `recordAt` gives the integer that the value bytes encode, which is the data value rounded toward zero. -/
theorem recordRoundTrip : Obligations.RecordRoundTrip := by
  intro r d v hlen hv
  have hv15 : v.length ≤ 15 := by
    rw [encValue_length hv]
    have := r.len.isLt
    omega
  obtain ⟨hpid, hcf, -, -, -, -, hival, hbp, -, -⟩ :=
    recordAt_describes (WireRecord.at_bytes ⟨true, r.pid, intTypeCode r.type, v⟩) hv15 (by norm_num)
  have hsent := sentInt_isTrunc r d
  obtain ⟨hclose, hsign⟩ := hsent.unscale
  rw [← hbp] at hsent hclose
  exact ⟨sentInt r d, hival.trans (wireInt_encValue hlen hv), hsent, hclose, hsign, hpid, hcf⟩

end Sys2Proof.Machine
end

section
/-! SUPPORT. The operations of the frame encoder (41_frame_encoder.md section 3): what each does in each case of its checks. -/

namespace Sys2Proof.Machine

/-! ## Command table (30_encoding.md R73) -/

theorem cmdRow_id_ne_zero (r : CmdRow) : r.id ≠ 0 := by
  intro h
  have hid : (r.idLess1.val + 1) % 2 ^ 8 = 0 := congrArg BitVec.toNat h
  have hlt := r.idLess1.isLt
  omega

theorem cmdLookup_eq_none_iff {cfg : Config} {id : Byte} : cmdLookup cfg id = none ↔ ∀ r ∈ cfg.cmdTable, r.id ≠ id := by
  simp [cmdLookup]

theorem cmdLookup_some {cfg : Config} {id : Byte} {r : CmdRow} (h : cmdLookup cfg id = some r) :
    r ∈ cfg.cmdTable ∧ r.id = id :=
  ⟨List.mem_of_find?_eq_some h, by simpa using List.find?_some h⟩

/-- The one row of an id is the one that is found. -/
theorem cmdLookup_of_unique {cfg : Config} {r : CmdRow} (hr : r ∈ cfg.cmdTable)
    (hunique : ∀ q ∈ cfg.cmdTable, q.id = r.id → q = r) : cmdLookup cfg r.id = some r := by
  cases h : cmdLookup cfg r.id with
  | none => exact absurd rfl (cmdLookup_eq_none_iff.1 h r hr)
  | some q =>
    obtain ⟨hq, hid⟩ := cmdLookup_some h
    rw [hunique q hq hid]

theorem cmdLookup_zero (cfg : Config) : cmdLookup cfg 0 = none := cmdLookup_eq_none_iff.2 fun r _ => cmdRow_id_ne_zero r

/-! ## The operations -/

section
variable {s : State} {c : Ctx}

theorem execEncRecord_badOperand (hc : s.ctxs[s.cur]? = some c) (hlen : recMax < c.recLen.toNat) :
    execEncRecord s = .next (s.setCtx (c.done .badOperand)) := by
  have hctx := State.ctx_of hc
  rw [execEncRecord, hctx, if_pos hlen, State.raise_eq hctx]

theorem execEncRecord_unknown (hc : s.ctxs[s.cur]? = some c) (hlen : c.recLen.toNat ≤ recMax)
    (hcmd : cmdLookup s.cfg c.args.cmd = none) : execEncRecord s = .next (s.setCtx (c.done .unknownCommand)) := by
  have hctx := State.ctx_of hc
  rw [execEncRecord, hctx, if_neg hlen.not_gt, State.encRecord_unknown hcmd, State.raise_eq hctx]

/-- A draw of value bytes leaves every bank as it is. -/
theorem ValueBytes.bank {r : CmdRow} {d : BitVec 32} {v : List Byte} {u : State} (h : ValueBytes s r d v u)
    (hc : s.ctxs[s.cur]? = some c) : u.ctxs[u.cur]? = some c := by
  rcases h with ⟨-, rfl⟩ | ⟨-, -, rfl⟩ <;> exact hc

theorem commandBytes_length {r : CmdRow} {v : List Byte} (h : v.length = r.len.toNat) :
    (commandBytes r v).length = 2 + r.len.toNat := by
  rw [commandBytes, WireRecord.bytes_length, h, Nat.add_comm]

section
variable {r : CmdRow} {v : List Byte} {u : State}

theorem execEncRecord_full (hc : s.ctxs[s.cur]? = some c) (hlen : c.recLen.toNat ≤ recMax)
    (hcmd : cmdLookup s.cfg c.args.cmd = some r) (hv : ValueBytes s r c.args.data v u)
    (hfull : recMax < c.recLen.toNat + 2 + r.len.toNat) :
    execEncRecord s = .next (u.setCtx (c.done .recordBufferFull)) := by
  have hu := State.ctx_of (hv.bank hc)
  rw [execEncRecord, State.ctx_of hc, if_neg hlen.not_gt, State.encRecord_of hcmd hv, ← commandBytes_eq hv.length]
  simp only [hu, commandBytes_length hv.length]
  rw [← Nat.add_assoc, if_pos hfull, State.raise_eq hu]

theorem execEncRecord_ok (hc : s.ctxs[s.cur]? = some c) (hcmd : cmdLookup s.cfg c.args.cmd = some r)
    (hv : ValueBytes s r c.args.data v u) (hfits : c.recLen.toNat + 2 + r.len.toNat ≤ recMax) :
    execEncRecord s = .next (u.setCtx (Ctx.done
      { c with recBuf := Memory.writeRange c.recBuf c.recLen.toNat (commandBytes r v),
               recLen := BitVec.ofNat 7 (c.recLen.toNat + 2 + r.len.toNat) } .ok)) := by
  have hlen : ¬ recMax < c.recLen.toNat := by omega
  rw [execEncRecord, State.ctx_of hc, if_neg hlen, State.encRecord_of hcmd hv, ← commandBytes_eq hv.length]
  simp only [State.ctx_of (hv.bank hc), commandBytes_length hv.length]
  rw [← Nat.add_assoc, if_neg hfits.not_gt, State.setCtx_finish (State.cur_lt (hv.bank hc))]

end

/-- The frame that BUILD_FRAME stores (41_frame_encoder.md R91): that of the bank's records, under the drawn nonce. -/
def State.builtFrame (s : State) (c : Ctx) : List Byte :=
  frameBytes s.cfg.cryptKey c.args.mfr c.args.prod c.args.devid (Memory.readRange c.recBuf 0 c.recLen.toNat) s.nonce

theorem State.builtFrame_length (s : State) (c : Ctx) : (s.builtFrame c).length = c.recLen.toNat + 11 := by
  rw [State.builtFrame, frameBytes_length, Memory.readRange_length]

theorem execBuildFrame_badOperand (hc : s.ctxs[s.cur]? = some c) (hlen : recMax < c.recLen.toNat) :
    execBuildFrame s = .next (s.setCtx (c.done .badOperand)) := by
  have hctx := State.ctx_of hc
  rw [execBuildFrame, hctx, if_pos hlen, State.raise_eq hctx]

/-- The bank after BUILD_FRAME (41_frame_encoder.md R91). -/
def State.builtBank (s : State) (c : Ctx) : Ctx :=
  Ctx.done { c with txBuf := Memory.writeRange c.txBuf 0 (s.builtFrame c), txLen := BitVec.ofNat 7 (c.recLen.toNat + 11),
                    rPip := s.nonce } .ok

theorem execBuildFrame_ok (hc : s.ctxs[s.cur]? = some c) (hlen : c.recLen.toNat ≤ recMax) :
    execBuildFrame s = .next (s.afterNonce.setCtx (s.builtBank c)) := by
  have hframe : frameBytes s.afterNonce.cfg.cryptKey c.args.mfr c.args.prod c.args.devid
      (Memory.readRange c.recBuf 0 c.recLen.toNat) s.nonce = s.builtFrame c := rfl
  rw [execBuildFrame, State.ctx_of hc, if_neg hlen.not_gt]
  simp only [State.afterNonce_ctx, State.ctx_of hc, hframe, State.builtFrame_length]
  rw [State.setCtx_finish (State.cur_lt (s := s.afterNonce) hc), State.builtBank]

theorem execTxFrame_notLockOwner (hc : s.ctxs[s.cur]? = some c) (hgate : s.holdsGate = false) :
    execTxFrame s = .next (s.setCtx (c.done .notLockOwner)) := by
  rw [execTxFrame, if_neg (by simp [hgate]), State.raise_eq (State.ctx_of hc)]

theorem execTxFrame_badOperand (hc : s.ctxs[s.cur]? = some c) (hgate : s.holdsGate = true)
    (hlen : c.txLen = 0 ∨ frameMax < c.txLen.toNat) : execTxFrame s = .next (s.setCtx (c.done .badOperand)) := by
  have hctx := State.ctx_of hc
  rw [execTxFrame, if_pos hgate, hctx, if_pos hlen, State.raise_eq hctx]

theorem execTxFrame_ok (hc : s.ctxs[s.cur]? = some c) (hgate : s.holdsGate = true)
    (hlen : ¬(c.txLen = 0 ∨ frameMax < c.txLen.toNat)) :
    execTxFrame s = .next ((s.transmit (Memory.readRange c.txBuf 0 c.txLen.toNat) c.args.repeatCount).setCtx (c.done .ok)) := by
  rw [execTxFrame, if_pos hgate, State.ctx_of hc, if_neg hlen, State.finish_eq (s := s.transmit _ _) (State.ctx_of hc)]

theorem State.transmit_eq (s : State) (p : List Byte) (rep : Byte) :
    s.transmit p rep = { s with events := s.events ++ [.transmit p p.length rep] } := rfl

end

/-! ## The statements -/

/-- Settles O19, by the cases of the length, of the command id, and of the room for the record. -/
theorem encRecordResult : Obligations.EncRecordResult := by
  refine ⟨decode_encode .encRecord, fun s c hc hwf => ⟨execEncRecord_badOperand hc, execEncRecord_unknown hc,
    fun r v u hlen hcmd hv => ⟨fun hfits => ?_, execEncRecord_full hc hlen hcmd hv⟩⟩,
    fun cfg => ⟨fun r => cmdLookup_of_unique, fun id => cmdLookup_eq_none_iff.2, cmdLookup_zero cfg⟩⟩
  refine ⟨_, execEncRecord_ok hc hcmd hv hfits, Memory.stored_writeRange ?_ hwf⟩
  rwa [commandBytes_length hv.length, ← Nat.add_assoc]

/-- Settles O20: `crypt` is byte by byte XOR with the keystream, and the rest is the layout of `frameBytes`. -/
theorem frameLayout : Obligations.FrameLayout := by
  intro key mfr prod devid rs pip _
  refine ⟨framePlain devid rs, crypt key pip (framePlain devid rs), rfl, ?_, fun i b hb => ?_, rfl⟩
  · rw [crypt_length, framePlain_length]
  · rw [crypt_getElem?, hb, Option.map_some]

/-- Settles O21, by the two cases of the length check. -/
theorem buildFrameResult : Obligations.BuildFrameResult := by
  refine ⟨decode_encode .buildFrame, fun s c hc => ⟨execBuildFrame_badOperand hc, fun hlen hwf => ?_⟩⟩
  refine ⟨_, execBuildFrame_ok hc hlen, Memory.stored_writeRange ?_ hwf⟩
  exact (Nat.zero_add _).trans_le ((s.builtFrame_length c).trans_le (by omega))

/-- Settles O22, by the gate check and then the length check. -/
theorem txFrameResult : Obligations.TxFrameResult := by
  refine ⟨decode_encode .txFrame, fun s c hc => ⟨fun hgate => ?_, fun hheld howner hlen => ?_, fun hheld howner hpos hlen => ?_⟩⟩
  · exact execTxFrame_notLockOwner hc (State.holdsGate_eq_false.2 hgate)
  · exact execTxFrame_badOperand hc (State.holdsGate_iff.2 ⟨hheld, howner⟩) hlen
  · have hlenOk : ¬(c.txLen = 0 ∨ 67 < c.txLen.toNat) := by
      rintro (hzero | hlong)
      · simp [hzero] at hpos
      · omega
    rw [exec, execTxFrame_ok hc (State.holdsGate_iff.2 ⟨hheld, howner⟩) hlenOk, State.transmit_eq, Memory.readRange_length]

end Sys2Proof.Machine
end

section
/-! SUPPORT. A frame that was built decodes (41_frame_encoder.md R88, 42_frame_decoder.md R93 to R107): the cipher takes itself back,
so the plaintext copy is the frame before encryption, its CRC matches, and the terminator ends the walk over its records. -/

namespace Sys2Proof.Machine

/-! ## Bytes of a memory -/

theorem Memory.readRange_add (m : Memory) (i k n : Nat) :
    Memory.readRange m i (k + n) = Memory.readRange m i k ++ Memory.readRange m (i + k) n := by
  induction k generalizing i with
  | zero => simp [Memory.readRange]
  | succ k ih =>
    rw [Nat.succ_add, Memory.readRange, ih, Memory.readRange, List.cons_append, Nat.succ_add_eq_add_succ]

/-- What was stored is read back. -/
theorem Memory.Stored.readRange {size off : Nat} {old m : Memory} {bs : List Byte} (h : Memory.Stored size old off bs m) :
    Memory.readRange m off bs.length = bs := by
  obtain ⟨-, hread, -⟩ := h
  refine List.ext_getElem (Memory.readRange_length _ _ _) fun j hj hj' => Option.some.inj ?_
  rw [← List.getElem?_eq_getElem hj, Memory.readRange_getElem? _ _ _ _ hj', hread j _ (List.getElem?_eq_getElem hj')]

theorem be16_append (v : BitVec 16) : (v.extractLsb' 8 8 ++ v.extractLsb' 0 8 : BitVec 16) = v :=
  BitVec.extractLsb'_append_extractLsb'

theorem be24_append (v : BitVec 24) : (v.extractLsb' 16 8 ++ v.extractLsb' 8 8 ++ v.extractLsb' 0 8 : BitVec 24) = v := by
  have hhigh : (v.extractLsb' 16 8 ++ v.extractLsb' 8 8 : BitVec 16) = v.extractLsb' 8 16 :=
    BitVec.extractLsb'_append_extractLsb'_eq_extractLsb' rfl
  rw [hhigh]
  exact BitVec.extractLsb'_append_extractLsb'

/-! ## A frame in a buffer -/

section
variable {key mfr prod : Byte} {devid : BitVec 24} {rs : List Byte} {pip : BitVec 16} {b : Memory}

/-- The bytes of a frame before encryption (41_frame_encoder.md R88). -/
def clearFrame (mfr prod : Byte) (devid : BitVec 24) (rs : List Byte) (pip : BitVec 16) : List Byte :=
  [BitVec.ofNat 8 (10 + rs.length), mfr, prod] ++ be16 pip ++ framePlain devid rs ++ be16 (crc16 (framePlain devid rs))

/-- The buffer `b` starts with the frame of the record bytes `rs`. -/
def HoldsFrame (key mfr prod : Byte) (devid : BitVec 24) (rs : List Byte) (pip : BitVec 16) (b : Memory) : Prop :=
  Memory.readRange b 0 (rs.length + 11) = frameBytes key mfr prod devid rs pip

/-- The three parts of a frame: header in clear, encrypted region, CRC in clear (41_frame_encoder.md R88). -/
theorem HoldsFrame.parts (h : HoldsFrame key mfr prod devid rs pip b) :
    Memory.readRange b 0 5 = [BitVec.ofNat 8 (10 + rs.length), mfr, prod] ++ be16 pip
      ∧ Memory.readRange b 5 (rs.length + 4) = crypt key pip (framePlain devid rs)
      ∧ Memory.readRange b (rs.length + 9) 2 = be16 (crc16 (framePlain devid rs)) := by
  have hsplit : Memory.readRange b 0 (rs.length + 11)
      = Memory.readRange b 0 5 ++ Memory.readRange b 5 (rs.length + 4) ++ Memory.readRange b (rs.length + 9) 2 := by
    rw [show rs.length + 11 = 5 + (rs.length + 4) + 2 by omega, Memory.readRange_add, Memory.readRange_add,
      show 0 + (5 + (rs.length + 4)) = rs.length + 9 by omega]
  rw [HoldsFrame, hsplit, frameBytes] at h
  obtain ⟨hfront, hcrc⟩ := List.append_inj' h (by simp [be16])
  obtain ⟨hheader, hregion⟩ := List.append_inj hfront (by simp [be16])
  exact ⟨hheader, hregion, hcrc⟩

theorem HoldsFrame.header (h : HoldsFrame key mfr prod devid rs pip b) :
    Memory.read b 0 = BitVec.ofNat 8 (10 + rs.length) ∧ Memory.read b 1 = mfr ∧ Memory.read b 2 = prod
      ∧ Memory.read b 3 ++ Memory.read b 4 = pip := by
  obtain ⟨hheader, -, -⟩ := h.parts
  simp only [Memory.readRange, be16, List.cons_append, List.nil_append, List.cons.injEq, and_true] at hheader
  obtain ⟨hl, hmfr, hprod, hhigh, hlow⟩ := hheader
  refine ⟨hl, hmfr, hprod, ?_⟩
  rw [hhigh, hlow]
  exact be16_append pip

theorem HoldsFrame.crc (h : HoldsFrame key mfr prod devid rs pip b) :
    Memory.read b (rs.length + 9) ++ Memory.read b (rs.length + 10) = crc16 (framePlain devid rs) := by
  obtain ⟨-, -, hcrc⟩ := h.parts
  simp only [Memory.readRange, be16, List.cons.injEq, and_true] at hcrc
  obtain ⟨hhigh, hlow⟩ := hcrc
  rw [hhigh, hlow]
  exact be16_append _

/-- The plaintext copy of a built frame is the frame before encryption (40_crc_cipher.md R80). -/
theorem HoldsFrame.plaintext (h : HoldsFrame key mfr prod devid rs pip b) :
    framePlaintext key b (10 + rs.length) = clearFrame mfr prod devid rs pip := by
  obtain ⟨hheader, hregion, hcrc⟩ := h.parts
  obtain ⟨-, -, -, hpip⟩ := h.header
  rw [framePlaintext, hpip, show 10 + rs.length - 6 = rs.length + 4 by omega, show 10 + rs.length - 1 = rs.length + 9 by omega,
    hheader, hregion, hcrc, cipherSymmetry key pip, clearFrame]

theorem clearFrame_drop_five : (clearFrame mfr prod devid rs pip).drop 5
    = framePlain devid rs ++ be16 (crc16 (framePlain devid rs)) := rfl

theorem clearFrame_drop_eight : (clearFrame mfr prod devid rs pip).drop 8
    = rs ++ ([0] ++ be16 (crc16 (framePlain devid rs))) := by
  rw [← List.append_assoc]
  rfl

/-- The byte behind the records is the terminator. -/
theorem clearFrame_terminator : (clearFrame mfr prod devid rs pip).getD (8 + rs.length) 0 = 0 := by
  rw [getD_add_of_drop clearFrame_drop_eight, List.getD_append_right _ _ _ _ le_rfl, Nat.sub_self]
  rfl

theorem clearFrame_devid : (clearFrame mfr prod devid rs pip).getD 5 0 ++ (clearFrame mfr prod devid rs pip).getD 6 0
    ++ (clearFrame mfr prod devid rs pip).getD 7 0 = devid := be24_append devid

/-- What the decoder gives for a built frame. -/
def decodedFrame (mfr prod : Byte) (devid : BitVec 24) (rs : List Byte) (pip : BitVec 16) : DecodedFrame :=
  { l := BitVec.ofNat 8 (10 + rs.length), mfr := mfr, prod := prod, pip := pip, devid := devid,
    crc := crc16 (framePlain devid rs),
    recs := parseRecords (clearFrame mfr prod devid rs pip) (rs.length + 9) (rs.length + 1) 8,
    plain := clearFrame mfr prod devid rs pip }

/-- A built frame passes the length check and the CRC check. -/
theorem HoldsFrame.decodes (h : HoldsFrame key mfr prod devid rs pip b) (hlen : rs.length ≤ 56) :
    decodeFrame key b (rs.length + 11) = .ok (decodedFrame mfr prod devid rs pip) := by
  obtain ⟨hl, hmfr, hprod, hpip⟩ := h.header
  have hl' : (Memory.read b 0).toNat = 10 + rs.length := by
    rw [hl, BitVec.toNat_ofNat]
    omega
  have hregion : ((clearFrame mfr prod devid rs pip).drop 5).take (rs.length + 4) = framePlain devid rs := by
    rw [clearFrame_drop_five, ← framePlain_length devid rs, List.take_left]
  have hcrc := h.crc
  rw [show rs.length + 10 = 10 + rs.length by omega] at hcrc
  simp only [decodeFrame, hl']
  rw [if_neg (by omega), h.plaintext, show 10 + rs.length - 6 = rs.length + 4 by omega,
    show 10 + rs.length - 1 = rs.length + 9 by omega, show rs.length + 9 - 8 = rs.length + 1 by omega,
    hregion, hcrc, if_neg (not_not.2 rfl), hl, hmfr, hprod, hpip, clearFrame_devid, decodedFrame]

end

/-- The records of a built frame are the ones that went into it. -/
theorem decodedFrame_recs {mfr prod : Byte} {devid : BitVec 24} {pip : BitVec 16} {rs : List WireRecord}
    (hok : ∀ r ∈ rs, r.ok = true) (hlen : (rs.flatMap WireRecord.bytes).length ≤ 56) :
    DecodedAs (decodedFrame mfr prod devid (rs.flatMap WireRecord.bytes) pip).recs rs 8 := by
  have hcount := length_le_flatMap_bytes rs
  refine parseRecords_decodedAs (by omega) rs hok clearFrame_drop_eight (by omega) (by omega) fun fuel => ?_
  exact parseRecords_of_terminator (by rw [clearFrame_terminator]; rfl) fuel

/-! ## Build, copy, decode -/

theorem execDecodeFrame_eq {s : State} {c : Ctx} (hc : s.ctxs[s.cur]? = some c) (hlen : c.rxLen.toNat ≤ frameMax)
    {d : DecodeResult} (hd : decodeFrame s.cfg.cryptKey c.rxBuf c.rxLen.toNat = d) :
    execDecodeFrame s = .next (s.setCtx ((c.writeDecode d).done (decodeCode d))) := by
  subst hd
  rw [execDecodeFrame, State.ctx_of hc, if_neg hlen.not_gt, State.setCtx_finish (State.cur_lt hc)]

/-- A bank that is written is the issuing one afterwards. -/
theorem State.setCtx_get {s : State} (h : s.cur < s.ctxs.length) (c : Ctx) : (s.setCtx c).ctxs[s.cur]? = some c := by
  simp [h]

theorem State.setCtx_cur_lt {s : State} (h : s.cur < s.ctxs.length) (c : Ctx) : (s.setCtx c).cur < (s.setCtx c).ctxs.length := by
  simpa using h

/-- TX_BUF after BUILD_FRAME holds the frame. -/
theorem State.builtBank_holdsFrame {s : State} {c : Ctx} (hwf : Memory.wf frameMax c.txBuf = true)
    (hlen : c.recLen.toNat ≤ recMax) {rs : List Byte} (hrs : Memory.readRange c.recBuf 0 c.recLen.toNat = rs) :
    HoldsFrame s.cfg.cryptKey c.args.mfr c.args.prod c.args.devid rs s.nonce (s.builtBank c).txBuf := by
  have hframe := s.builtFrame_length c
  have hfits : 0 + (s.builtFrame c).length ≤ frameMax := by
    show 0 + (s.builtFrame c).length ≤ 56 + 11
    rw [hframe, Nat.zero_add]
    exact Nat.add_le_add_right hlen 11
  have hread := (Memory.stored_writeRange hfits hwf).readRange
  subst hrs
  rw [hframe] at hread
  rw [HoldsFrame, Memory.readRange_length]
  exact hread

/-- The decode outputs of a frame name its records, whatever stood there before (10_state.md R18). -/
theorem decOutOf_records {f : DecodedFrame} {rs : List WireRecord} {i : Nat} (h : DecodedAs f.recs rs i) (hcount : rs.length ≤ 28)
    (old : DecOut) : (decOutOf f old).nrec.toNat = rs.length ∧ DecodedAs ((decOutOf f old).recs.take rs.length) rs i := by
  have ⟨hnum, _⟩ := h
  constructor
  · rw [decOutOf, BitVec.toNat_ofNat, hnum]
    omega
  · rwa [decOutOf, List.take_left' hnum]

/-- Settles O26: TX_BUF holds the frame, so the copy decodes, and the decode registers take over what it decodes to. -/
theorem frameRoundTrip : Obligations.FrameRoundTrip := by
  intro s c rs hc hmem hlen hok hrecs
  obtain ⟨⟨-, htx, -, -⟩, -⟩ := Ctx.memOk_iff.1 hmem
  have hbytes : (rs.flatMap WireRecord.bytes).length = c.recLen.toNat := by rw [← hrecs, Memory.readRange_length]
  have hcount := length_le_flatMap_bytes rs
  have htxLen : (s.builtBank c).txLen.toNat = (rs.flatMap WireRecord.bytes).length + 11 := by
    rw [hbytes]
    exact (BitVec.toNat_ofNat _ _).trans (Nat.mod_eq_of_lt (by omega))
  have hdecode := (State.builtBank_holdsFrame (s := s) htx hlen hrecs).decodes (by omega)
  rw [← htxLen] at hdecode
  have hcur : s.afterNonce.cur < s.afterNonce.ctxs.length := State.cur_lt hc
  have hcur' := State.setCtx_cur_lt hcur (s.builtBank c)
  refine ⟨_, _, _, _, execBuildFrame_ok hc hlen, State.setCtx_get hcur _, execDecodeFrame_eq (State.setCtx_get hcur' _) ?_ hdecode,
    State.setCtx_get (State.setCtx_cur_lt hcur' _) _,
    rfl, rfl, rfl, rfl, rfl, rfl, ?_⟩
  · show (s.builtBank c).txLen.toNat ≤ 67
    omega
  · exact decOutOf_records (decodedFrame_recs hok (by omega)) (by omega) _

end Sys2Proof.Machine
end

section
/-! SUPPORT. The four stops of a walk over records (42_frame_decoder.md R98), and the records before each of them. -/

namespace Sys2Proof.Machine

section
variable {p rest after : List Byte} {stop i : Nat}

/-- R98: the walk stops at its end, at a zero param id, at a header that does not fit and at a value that does not fit. -/
theorem parseRecords_of_stop
    (h : stop ≤ i ∨ (p.getD i 0).extractLsb' 0 7 = 0 ∨ stop ≤ i + 1
      ∨ stop < i + 2 + ((p.getD (i + 1) 0).extractLsb' 0 4).toNat) (fuel : Nat) :
    parseRecords p stop fuel i = [] := by
  cases fuel with
  | zero => rfl
  | succ fuel =>
    simp only [parseRecords]
    split_ifs with hend hpid hheader hvalue
    case neg => simp only [hend, hpid, hheader, hvalue, or_self] at h
    all_goals rfl

/-- What is left of a region, as R98 names its four stops. -/
def StopsAt (rest : List Byte) : Prop :=
  rest = [] ∨ (rest.headD 0).extractLsb' 0 7 = 0#7 ∨ rest.length = 1
    ∨ rest.length < 2 + ((rest.getD 1 0).extractLsb' 0 4).toNat

/-- The walk stops in front of a stop that the region ends with, whatever stands behind the region. -/
theorem parseRecords_of_stopsAt (hstop : StopsAt rest) (hdrop : p.drop i = rest ++ after) (fuel : Nat) :
    parseRecords p (i + rest.length) fuel i = [] := by
  have hbyte {k : Nat} (hk : k < rest.length) : p.getD (i + k) 0 = rest.getD k 0 := by
    rw [getD_add_of_drop hdrop, List.getD_append _ _ _ _ hk]
  refine parseRecords_of_stop ?_ fuel
  by_cases hshort : rest.length ≤ 1
  · omega
  obtain hnil | hpid | hone | hvalue := hstop
  · simp [hnil] at hshort
  · have hhead : p.getD i 0 = rest.headD 0 := by
      rw [← Nat.add_zero i, hbyte (by omega), List.headD_eq_getD]
    exact .inr (.inl (hhead ▸ hpid))
  · omega
  · have hlen : p.getD (i + 1) 0 = rest.getD 1 0 := hbyte (by omega)
    rw [hlen]
    omega

end

/-- Settles O24: the walk takes the records one by one, and stops behind the last. -/
theorem recordsParsedUntilStop : Obligations.RecordsParsedUntilStop := by
  intro front rest after rs hok hlen hstop
  have hrecs : (front ++ rs.flatMap WireRecord.bytes ++ rest ++ after).drop front.length
      = rs.flatMap WireRecord.bytes ++ (rest ++ after) := by
    simp only [List.append_assoc, List.drop_left]
  have hrest : (front ++ rs.flatMap WireRecord.bytes ++ rest ++ after).drop (front.length + (rs.flatMap WireRecord.bytes).length)
      = rest ++ after := by
    rw [← List.drop_drop, hrecs, List.drop_left]
  have hcount := length_le_flatMap_bytes rs
  exact parseRecords_decodedAs (by omega) rs hok hrecs (by omega) (by omega) (parseRecords_of_stopsAt hstop hrest)

end Sys2Proof.Machine
end

section
/-! SUPPORT. `decodeFrame` by the cases of its two checks (42_frame_decoder.md R94 to R96), and the operation DECODE_FRAME. -/

namespace Sys2Proof.Machine

/-! ## The two checks -/

section
variable {key : Byte} {b : Memory} {n l : Nat}

/-- The length check rejects a frame of length byte `l` of which `n` bytes were received (42_frame_decoder.md R94). -/
def LengthRejected (n l : Nat) : Prop := n = 0 ∨ l < 10 ∨ 66 < l ∨ n < l + 1

/-- The CRC that a frame of length byte `l` carries (42_frame_decoder.md R95). -/
def receivedCrc (b : Memory) (l : Nat) : BitVec 16 := Memory.read b (l - 1) ++ Memory.read b l

/-- The decrypted region of a frame of length byte `l`, which is what its CRC covers (42_frame_decoder.md R95). -/
def decryptedRegion (key : Byte) (b : Memory) (l : Nat) : List Byte :=
  crypt key (Memory.read b 3 ++ Memory.read b 4) (Memory.readRange b 5 (l - 6))

theorem decryptedRegion_length (key : Byte) (b : Memory) (l : Nat) : (decryptedRegion key b l).length = l - 6 := by
  rw [decryptedRegion, crypt_length, Memory.readRange_length]

/-- Each byte is decrypted with the keystream of the frame's own nonce (40_crc_cipher.md R79). -/
theorem decryptedRegion_getElem? {i : Nat} (hi : i < l - 6) : (decryptedRegion key b l)[i]?
    = some (Memory.read b (5 + i) ^^^ keyByte key (Memory.read b 3 ++ Memory.read b 4) i) := by
  rw [decryptedRegion, crypt_getElem?, Memory.readRange_getElem? _ _ _ _ hi, Option.map_some]

theorem framePlaintext_region (key : Byte) (b : Memory) (l : Nat) :
    ((framePlaintext key b l).drop 5).take (l - 6) = decryptedRegion key b l := by
  rw [framePlaintext, List.append_assoc, List.drop_left' (Memory.readRange_length b 5 0), ← decryptedRegion,
    List.take_left' (decryptedRegion_length key b l)]

/-- The header fields and the records of a frame that passes both checks (42_frame_decoder.md R96). -/
def acceptedFrame (key : Byte) (b : Memory) (l : Nat) : DecodedFrame :=
  let p := framePlaintext key b l
  { l := Memory.read b 0, mfr := Memory.read b 1, prod := Memory.read b 2, pip := Memory.read b 3 ++ Memory.read b 4,
    devid := p.getD 5 0 ++ p.getD 6 0 ++ p.getD 7 0, crc := receivedCrc b l, recs := parseRecords p (l - 1) (l - 9) 8,
    plain := p }

theorem decodeFrame_of_lengthRejected (hl : (Memory.read b 0).toNat = l) (hlen : LengthRejected n l) :
    decodeFrame key b n = .frameLen := by
  subst hl
  exact if_pos hlen

theorem decodeFrame_of_crc_ne (hl : (Memory.read b 0).toNat = l) (hlen : ¬ LengthRejected n l)
    (hcrc : crc16 (decryptedRegion key b l) ≠ receivedCrc b l) : decodeFrame key b n = .crcMismatch (framePlaintext key b l) := by
  subst hl
  rw [← framePlaintext_region] at hcrc
  exact (if_neg hlen).trans (if_pos hcrc)

theorem decodeFrame_of_crc_eq (hl : (Memory.read b 0).toNat = l) (hlen : ¬ LengthRejected n l)
    (hcrc : crc16 (decryptedRegion key b l) = receivedCrc b l) : decodeFrame key b n = .ok (acceptedFrame key b l) := by
  subst hl
  rw [← framePlaintext_region] at hcrc
  exact (if_neg hlen).trans (if_neg (not_not.2 hcrc))

/-- Nothing but the length check gives FRAME_LEN (42_frame_decoder.md R94). -/
theorem decodeFrame_eq_frameLen_iff (hl : (Memory.read b 0).toNat = l) :
    decodeFrame key b n = .frameLen ↔ LengthRejected n l := by
  refine ⟨fun h => ?_, decodeFrame_of_lengthRejected hl⟩
  by_contra hlen
  by_cases hcrc : crc16 (decryptedRegion key b l) = receivedCrc b l
  · simp [decodeFrame_of_crc_eq hl hlen hcrc] at h
  · simp [decodeFrame_of_crc_ne hl hlen hcrc] at h

/-- A frame that is accepted has passed both checks (42_frame_decoder.md R94, R95). -/
theorem checks_of_decodeFrame_ok {f : DecodedFrame} (hl : (Memory.read b 0).toNat = l) (h : decodeFrame key b n = .ok f) :
    ¬ LengthRejected n l ∧ crc16 (decryptedRegion key b l) = receivedCrc b l := by
  have hlen : ¬ LengthRejected n l := fun hlen => by simp [decodeFrame_of_lengthRejected hl hlen] at h
  refine ⟨hlen, by_contra fun hcrc => ?_⟩
  simp [decodeFrame_of_crc_ne hl hlen hcrc] at h

/-! ## The plaintext copy (42_frame_decoder.md R95) -/

/-- The header and the CRC bytes of the plaintext copy are those of the frame. -/
theorem framePlaintext_getElem?_clear (hl : 6 ≤ l) {i : Nat} (hi : i < 5 ∨ i = l - 1 ∨ i = l) :
    (framePlaintext key b l)[i]? = some (Memory.read b i) := by
  rw [framePlaintext]
  by_cases hheader : i < 5
  · rw [List.append_assoc, List.getElem?_append_left (by simpa using hheader), Memory.readRange_getElem? _ _ _ _ hheader,
      Nat.zero_add]
  · obtain ⟨k, hk, rfl⟩ : ∃ k, k < 2 ∧ i = l - 1 + k := ⟨i - (l - 1), by omega, by omega⟩
    rw [List.getElem?_append_right (by simp [crypt_length]; omega), ← Memory.readRange_getElem? b 2 (l - 1) k hk]
    congr 1
    simp [crypt_length]
    omega

/-- Between them stands the decrypted region. -/
theorem framePlaintext_getElem?_region {i : Nat} (hi : i < l - 6) :
    (framePlaintext key b l)[5 + i]? = (decryptedRegion key b l)[i]? := by
  rw [← framePlaintext_region, List.getElem?_take_of_lt hi, List.getElem?_drop]

end

/-- Settles O23, by the cases of the length check and of the CRC check. -/
theorem decodeOutcome : Obligations.DecodeOutcome := by
  refine fun key b n l hl => ⟨decodeFrame_eq_frameLen_iff hl, fun hlow hhigh hn => ?_⟩
  have hlen : ¬ LengthRejected n l := by
    unfold LengthRejected
    omega
  refine ⟨framePlaintext key b l, ?_, fun i => framePlaintext_getElem?_clear (by omega),
    fun i hi => (framePlaintext_getElem?_region hi).trans (decryptedRegion_getElem? hi), ?_⟩
  · rw [framePlaintext_length]
    omega
  rw [framePlaintext_region]
  refine ⟨decodeFrame_of_crc_ne hl hlen, fun hcrc => ?_⟩
  have hok := decodeFrame_of_crc_eq hl hlen hcrc
  have hshape := decodeFrame_inShape key b n
  rw [hok] at hshape
  obtain ⟨-, hcount, -⟩ := hshape
  exact ⟨_, hok, rfl, hl, rfl, rfl, rfl, rfl, rfl, rfl, hcount⟩

/-! ## The operation DECODE_FRAME (42_frame_decoder.md R107) -/

theorem execDecodeFrame_badOperand {s : State} {c : Ctx} (hc : s.ctxs[s.cur]? = some c) (hlen : frameMax < c.rxLen.toNat) :
    execDecodeFrame s = .next (s.setCtx (c.done .badOperand)) := by
  have hctx := State.ctx_of hc
  rw [execDecodeFrame, hctx, if_pos hlen, State.raise_eq hctx]

/-- The records of a frame stand first in the decode registers, and those past DEC_NREC keep their value (10_state.md R18). -/
theorem decOutOf_recs_getElem? (f : DecodedFrame) (old : DecOut) (k : Nat) :
    (decOutOf f old).recs[k]? = if k < f.recs.length then f.recs[k]? else old.recs[k]? := by
  rw [decOutOf]
  split_ifs with hk
  · exact List.getElem?_append_left hk
  · rw [List.getElem?_append_right (by omega), List.getElem?_drop, Nat.add_sub_cancel' (by omega)]

/-- Settles O25, by the check of RX_LEN and then the three results of `decodeFrame`. -/
theorem decodeFrameResult : Obligations.DecodeFrameResult := by
  refine ⟨decode_encode .decodeFrame, fun s c hc hmem => ⟨execDecodeFrame_badOperand hc, fun hlen => ?_⟩⟩
  obtain ⟨⟨-, -, -, hplain⟩, -⟩ := Ctx.memOk_iff.1 hmem
  have hshape := decodeFrame_inShape s.cfg.cryptKey c.rxBuf c.rxLen.toNat
  have hstored {p : List Byte} (hp : p.length ≤ frameMax) :
      Memory.Stored 67 c.plainBuf 0 p (Memory.writeRange c.plainBuf 0 p) :=
    Memory.stored_writeRange ((Nat.zero_add _).trans_le hp) hplain
  refine ⟨execDecodeFrame_eq hc hlen, fun p hd => ?_, fun f hd => ?_⟩
  · rw [hd] at hshape
    exact ⟨_, execDecodeFrame_eq hc hlen hd, hstored hshape⟩
  · rw [hd] at hshape
    obtain ⟨hfits, -, -⟩ := hshape
    refine ⟨_, (decOutOf f c.dec).recs, execDecodeFrame_eq hc hlen hd, hstored hfits, fun k hk => ?_, fun k hk => ?_⟩
    · rw [decOutOf_recs_getElem?, if_pos hk]
    · rw [decOutOf_recs_getElem?, if_neg hk.not_gt]

end Sys2Proof.Machine
end

section
/-! SUPPORT. One changed byte of a built frame (42_frame_decoder.md R108). A CRC round can be undone, so two regions that differ in one
byte differ in their CRCs (40_crc_cipher.md R76), and of two frames that differ in one byte from index 5 on at most one is accepted. -/

namespace Sys2Proof.Machine

/-! ## One changed byte under the CRC (40_crc_cipher.md R76) -/

/-- Bit 0 of a round's result tells whether the polynomial went in: the shift clears it, and 0x1021 has it set. -/
theorem crcBit_getLsbD_zero (c : BitVec 16) : (crcBit c).getLsbD 0 = c.getLsbD 15 := by
  unfold crcBit
  split_ifs with htop
  · rw [BitVec.getLsbD_xor, htop]
    simp
  · simpa using htop

/-- A shift loses the top bit only. -/
theorem eq_of_shiftLeft_one_eq {c d : BitVec 16} (htop : c.getLsbD 15 = d.getLsbD 15) (h : c <<< 1 = d <<< 1) : c = d := by
  refine BitVec.eq_of_getElem_eq fun i hi => ?_
  by_cases hi15 : i = 15
  · subst hi15
    exact htop
  · have hbit := congrArg (·.getLsbD (i + 1)) h
    simpa [show i + 1 < 16 by omega] using hbit

theorem crcBit_injective : Function.Injective crcBit := by
  intro c d h
  have htop : c.getLsbD 15 = d.getLsbD 15 := by rw [← crcBit_getLsbD_zero, h, crcBit_getLsbD_zero]
  refine eq_of_shiftLeft_one_eq htop ?_
  unfold crcBit at h
  rw [htop] at h
  split_ifs at h
  · exact (BitVec.xor_left_inj _).1 h
  · exact h

/-- One byte leads two registers to one value only if the registers were the same. -/
theorem crcByte_left_injective (b : Byte) : Function.Injective (crcByte · b) := fun _ _ h =>
  (BitVec.xor_left_inj _).1 (crcBit_injective.iterate 8 h)

/-- Two bytes lead one register to one value only if the bytes are the same. -/
theorem crcByte_right_injective (c : BitVec 16) : Function.Injective (crcByte c) := by
  intro b d h
  have hhigh : (b.setWidth 16 <<< 8 : BitVec 16) = d.setWidth 16 <<< 8 :=
    (BitVec.xor_right_inj c).1 (crcBit_injective.iterate 8 h)
  have hnum := congrArg BitVec.toNat hhigh
  simp only [BitVec.toNat_shiftLeft, BitVec.toNat_setWidth, Nat.shiftLeft_eq] at hnum
  exact BitVec.eq_of_toNat_eq (by omega)

theorem foldl_crcByte_injective (bs : List Byte) : Function.Injective (bs.foldl crcByte) := by
  induction bs with
  | nil => exact fun _ _ h => h
  | cons b bs ih => exact fun _ _ h => crcByte_left_injective b (ih h)

/-- The CRC tells apart two byte strings that differ in one byte (R76). -/
theorem eq_of_crc16_append_cons_eq {front rest : List Byte} {x y : Byte}
    (h : crc16 (front ++ x :: rest) = crc16 (front ++ y :: rest)) : x = y := by
  simp only [crc16, List.foldl_append, List.foldl_cons] at h
  exact crcByte_right_injective _ (foldl_crcByte_injective rest h)

theorem eq_of_crc16_set_eq {bs : List Byte} {k : Nat} {x y : Byte} (hx : bs[k]? = some x)
    (h : crc16 (bs.set k y) = crc16 bs) : y = x := by
  obtain ⟨hk, rfl⟩ := List.getElem?_eq_some_iff.1 hx
  have hsplit : bs.take k ++ bs[k] :: bs.drop (k + 1) = bs := by rw [← List.drop_eq_getElem_cons, List.take_append_drop]
  rw [List.set_eq_take_append_cons_drop, if_pos hk] at h
  exact eq_of_crc16_append_cons_eq (h.trans (congrArg crc16 hsplit.symm))

/-! ## One changed byte of a frame -/

theorem Memory.readRange_write {size : Nat} {m : Memory} (hwf : Memory.wf size m = true) {i j : Nat} (hij : i ≤ j) (x : Byte)
    (n : Nat) : Memory.readRange (Memory.write m j x) i n = (Memory.readRange m i n).set (j - i) x := by
  refine List.ext_getElem (by simp) fun k hk hk' => Option.some.inj ?_
  rw [Memory.readRange_length] at hk
  rw [← List.getElem?_eq_getElem, ← List.getElem?_eq_getElem, Memory.readRange_getElem? _ _ _ _ hk, Memory.read_write hwf,
    List.getElem?_set, Memory.readRange_length, Memory.readRange_getElem? _ _ _ _ hk]
  by_cases hkj : i + k = j
  · rw [if_pos hkj, if_pos (by omega), if_pos (by omega)]
  · rw [if_neg hkj, if_neg (by omega)]

/-- A changed byte of the encrypted region changes that byte of the decrypted one (40_crc_cipher.md R79). -/
theorem decryptedRegion_write {size : Nat} {b : Memory} (hwf : Memory.wf size b = true) {j : Nat} (hj : 5 ≤ j) (key x : Byte)
    (l : Nat) : decryptedRegion key (Memory.write b j x) l
      = (decryptedRegion key b l).set (j - 5) (x ^^^ keyByte key (Memory.read b 3 ++ Memory.read b 4) (j - 5)) := by
  rw [decryptedRegion, Memory.read_write hwf, Memory.read_write hwf, if_neg (by omega), if_neg (by omega),
    Memory.readRange_write hwf hj, crypt_eq_mapIdx, List.mapIdx_set, ← crypt_eq_mapIdx, decryptedRegion]

/-- R108: of two frames that differ in one byte from index 5 on at most one is accepted. A byte of the region changes the CRC that is
computed, a byte of the CRC the one that it is compared to. -/
theorem eq_read_of_both_accepted {size : Nat} {key : Byte} {b : Memory} {n j : Nat} {x : Byte} {f g : DecodedFrame}
    (hwf : Memory.wf size b = true) (hj : 5 ≤ j) (hjl : j ≤ (Memory.read b 0).toNat) (hf : decodeFrame key b n = .ok f)
    (hg : decodeFrame key (Memory.write b j x) n = .ok g) : x = Memory.read b j := by
  have hread (a : Nat) : Memory.read (Memory.write b j x) a = if a = j then x else Memory.read b a :=
    Memory.read_write hwf j a x
  have hl : (Memory.read (Memory.write b j x) 0).toNat = (Memory.read b 0).toNat := by rw [hread, if_neg (by omega)]
  obtain ⟨hlen, hcrc⟩ := checks_of_decodeFrame_ok rfl hf
  obtain ⟨-, hcrc'⟩ := checks_of_decodeFrame_ok hl hg
  generalize (Memory.read b 0).toNat = l at *
  have hlow : 10 ≤ l := by
    unfold LengthRejected at hlen
    omega
  rw [decryptedRegion_write hwf hj, receivedCrc, hread, hread] at hcrc'
  rw [receivedCrc] at hcrc
  by_cases hregion : j < l - 1
  · rw [if_neg (by omega), if_neg (by omega), ← hcrc] at hcrc'
    have hbyte := eq_of_crc16_set_eq (decryptedRegion_getElem? (by omega)) hcrc'
    rw [Nat.add_sub_cancel' hj] at hbyte
    exact (BitVec.xor_left_inj _).1 hbyte
  · rw [List.set_eq_of_length_le (by rw [decryptedRegion_length]; omega), hcrc] at hcrc'
    obtain rfl | rfl : j = l - 1 ∨ j = l := by omega
    · rw [if_pos rfl, if_neg (by omega)] at hcrc'
      exact ((BitVec.append_left_inj _).1 hcrc').symm
    · rw [if_neg (by omega), if_pos rfl] at hcrc'
      exact ((BitVec.append_right_inj _).1 hcrc').symm

/-! ## One changed byte of a built frame -/

section
variable {key mfr prod : Byte} {devid : BitVec 24} {rs : List Byte} {pip : BitVec 16}

theorem holdsFrame_ofBytes : HoldsFrame key mfr prod devid rs pip (Memory.ofBytes (frameBytes key mfr prod devid rs pip)) := by
  have hread := (Memory.stored_ofBytes (le_refl (frameBytes key mfr prod devid rs pip).length)).readRange
  rwa [frameBytes_length] at hread

/-- MFR and PROD are neither ciphered nor under the CRC: a frame with another MFR or PROD is the frame built for those (R108). -/
theorem HoldsFrame.write_ids {size : Nat} {b : Memory} (h : HoldsFrame key mfr prod devid rs pip b)
    (hwf : Memory.wf size b = true) (x : Byte) :
    HoldsFrame key x prod devid rs pip (Memory.write b 1 x) ∧ HoldsFrame key mfr x devid rs pip (Memory.write b 2 x) := by
  unfold HoldsFrame at h ⊢
  rw [Memory.readRange_write hwf (by omega), Memory.readRange_write hwf (by omega), h]
  exact ⟨rfl, rfl⟩

end

/-- Settles O27: the built frame itself is accepted, so no other one from index 5 on is, and with another MFR or PROD it is still a
built frame. -/
theorem tamperDetection : Obligations.TamperDetection := by
  intro key mfr prod devid rs pip j x hlen hj hx
  have hframe := holdsFrame_ofBytes (key := key) (mfr := mfr) (prod := prod) (devid := devid) (rs := rs) (pip := pip)
  have hwf := Memory.wf_ofBytes (le_refl (frameBytes key mfr prod devid rs pip).length)
  refine ⟨fun hj5 g hg => hx ?_, ?_⟩
  · obtain ⟨hl, -⟩ := hframe.header
    have hjl : j ≤ (Memory.read (Memory.ofBytes (frameBytes key mfr prod devid rs pip)) 0).toNat := by
      rw [hl, BitVec.toNat_ofNat]
      omega
    have hbyte := eq_read_of_both_accepted hwf hj5 hjl (hframe.decodes hlen) hg
    have hjn : j < (frameBytes key mfr prod devid rs pip).length := by
      rw [frameBytes_length]
      omega
    rw [hbyte, Memory.read_ofBytes, List.getD_eq_getElem _ _ hjn, List.getElem?_eq_getElem hjn]
  · obtain ⟨hmfr, hprod⟩ := hframe.write_ids hwf x
    rintro (rfl | rfl)
    · exact ⟨_, hmfr.decodes hlen, rfl, rfl, rfl, rfl⟩
    · exact ⟨_, hprod.decodes hlen, rfl, rfl, rfl, rfl⟩

end Sys2Proof.Machine
end

section
/-! SUPPORT. The receive ring buffer as a queue (43_ring_buffer.md): what pushes, pop, peek and a drain pass do to the unread slots,
and the operations RB_PUSH, RB_POP, RB_PEEK and RB_DRAIN. -/

namespace Sys2Proof.Machine

/-! ## Pushes: the queue keeps its last five slots -/

/-- What stands behind a list's last `k` elements pushes out as many of them as if the whole list were there. -/
theorem rtake_rtake_append {α : Type} (xs ys : List α) (k : Nat) :
    List.rtake (List.rtake xs k ++ ys) k = List.rtake (xs ++ ys) k := by
  have hdrop : List.rtake xs k ++ ys = (xs ++ ys).drop (xs.length - k) :=
    (List.drop_append_of_le_length (Nat.sub_le _ _)).symm
  rw [hdrop, List.rtake, List.rtake, List.drop_drop]
  congr 1
  simp only [List.length_drop, List.length_append]
  omega

theorem Ring.unread_length_le (r : Ring) : r.unread.length ≤ 5 := by
  rw [Ring.unread_length]
  exact Nat.le_of_lt_succ r.count.isLt

/-- Full or not, a push keeps the last five of the slots that were unread and the new one (43_ring_buffer.md R110). -/
theorem Ring.push_unread {r : Ring} (h : r.ok = true) {d : List Byte} {ts : BitVec 64} (hd : d.length ≤ 67) :
    (r.push d ts).unread = List.rtake (r.unread ++ [slotOf d ts]) 5 := by
  obtain ⟨-, hunread⟩ := Ring.push_spec h (ts := ts) hd
  have hlen := r.unread_length
  have hle := r.unread_length_le
  rw [hunread, List.rtake, List.length_append, hlen, List.length_singleton]
  split_ifs with hfull
  · have hcount : r.count.val = 5 := congrArg Fin.val hfull
    rw [hcount, List.drop_append_of_le_length (by omega), List.drop_one]
  · have hroom : r.count.val ≠ 5 := fun hcount => hfull (Fin.ext hcount)
    rw [show r.count.val + 1 - 5 = 0 by omega, List.drop_zero]

/-- The pushes of RingKeepsLastFive, one after the other. -/
def Ring.pushAll (r : Ring) (fs : List (List Byte × BitVec 64)) : Ring := fs.foldl (fun q f => q.push f.1 f.2) r

theorem Ring.pushAll_spec (fs : List (List Byte × BitVec 64)) {r : Ring} (h : r.ok = true) (hfs : ∀ f ∈ fs, f.1.length ≤ 67) :
    (r.pushAll fs).ok = true ∧ (r.pushAll fs).unread = List.rtake (r.unread ++ fs.map (fun f => slotOf f.1 f.2)) 5 := by
  induction fs generalizing r with
  | nil =>
    refine ⟨h, ?_⟩
    rw [List.map_nil, List.append_nil, List.rtake, Nat.sub_eq_zero_of_le r.unread_length_le]
    rfl
  | cons f fs ih =>
    obtain ⟨hf, hrest⟩ := List.forall_mem_cons.1 hfs
    obtain ⟨hok, hunread⟩ := ih (Ring.push_spec h (ts := f.2) hf).1 hrest
    refine ⟨hok, hunread.trans ?_⟩
    rw [Ring.push_unread h hf, rtake_rtake_append, List.append_assoc, List.map_cons, List.singleton_append]

/-- Settles O31, by induction on the pushes: each keeps the last five of the queue and the new slot. -/
theorem ringKeepsLastFive : Obligations.RingKeepsLastFive := by
  intro r fs h hfs
  obtain ⟨hok, hunread⟩ := Ring.pushAll_spec fs h hfs
  refine ⟨hok, hunread.trans ?_⟩
  rw [List.rtake, List.length_append, List.length_map]

/-! ## Pop and peek -/

/-- EMPTY for an empty queue (43_ring_buffer.md R111). -/
theorem Ring.pop_of_unread_nil {r : Ring} (h : r.unread = []) : r.pop = none := by
  have hcount : r.count = 0 := Fin.ext (by rw [← Ring.unread_length, h]; rfl)
  rw [Ring.pop, if_pos hcount]

/-- Peek counts the unread slots from the oldest, and is EMPTY past them (43_ring_buffer.md R112). -/
theorem Ring.peek_eq_unread (r : Ring) (i : Nat) : r.peek i = r.unread[i]? := by
  rw [Ring.unread_get, Ring.peek]
  by_cases hi : i < r.count.val
  · rw [if_neg hi.not_ge, if_pos hi]
  · rw [if_pos (not_lt.1 hi), if_neg hi]

/-! ## RB_PUSH, RB_POP and RB_PEEK -/

section
variable {s : State} {c : Ctx}

/-- The bytes that RB_PUSH takes from RX_BUF (43_ring_buffer.md R114). -/
def Ctx.rxFrame (c : Ctx) : List Byte := Memory.readRange c.rxBuf 0 c.rxLen.toNat

theorem Ctx.rxFrame_length (c : Ctx) : c.rxFrame.length = c.rxLen.toNat := Memory.readRange_length _ _ _

theorem Ctx.slotOf_rxFrame (c : Ctx) (ts : BitVec 64) :
    slotOf c.rxFrame ts = { bytes := Memory.ofBytes c.rxFrame, len := c.rxLen, ts := ts } := by
  rw [slotOf, c.rxFrame_length, BitVec.ofNat_toNat, BitVec.setWidth_eq]

/-- The pushed slot reads as RX_BUF below RX_LEN, and 0 past it (43_ring_buffer.md R110). -/
theorem Ctx.read_rxFrame (c : Ctx) (a : Nat) :
    Memory.read (Memory.ofBytes c.rxFrame) a = if a < c.rxLen.toNat then Memory.read c.rxBuf a else 0 := by
  rw [Memory.read_ofBytes]
  split_ifs with ha
  · rw [Ctx.rxFrame, Memory.readRange_getD _ _ _ _ ha, Nat.zero_add]
  · exact List.getD_eq_default _ _ (by rw [c.rxFrame_length]; omega)

theorem execRbPush_badOperand (hc : s.ctxs[s.cur]? = some c) (hlen : frameMax < c.rxLen.toNat) :
    execRbPush s = .next (s.setCtx (c.done .badOperand)) := by
  have hctx := State.ctx_of hc
  rw [execRbPush, hctx, if_pos hlen, State.raise_eq hctx]

theorem execRbPush_ok (hc : s.ctxs[s.cur]? = some c) (hlen : c.rxLen.toNat ≤ frameMax) :
    execRbPush s = .next ((s.setRing (s.ring.push c.rxFrame c.args.time)).setCtx (c.done .ok)) := by
  have hctx := State.ctx_of hc
  rw [execRbPush, hctx, if_neg hlen.not_gt]
  exact congrArg _ (State.finish_eq (s := s.setRing (s.ring.push c.rxFrame c.args.time)) hctx _)

theorem execRbPop_empty (hc : s.ctxs[s.cur]? = some c) (hpop : s.ring.pop = none) :
    execRbPop s = .next (s.setCtx (c.done .empty)) := by
  rw [execRbPop, hpop]
  exact congrArg _ (State.raise_eq (State.ctx_of hc) _)

theorem execRbPop_ok (hc : s.ctxs[s.cur]? = some c) {e : Slot} {r : Ring} (hpop : s.ring.pop = some (e, r)) :
    execRbPop s = .next ((s.setRing r).setCtx ((c.takeSlot e).done .ok)) := by
  rw [execRbPop, hpop, State.ctx_of hc]
  exact congrArg _ (State.setCtx_finish (s := s.setRing r) (State.cur_lt hc) _ _)

theorem execRbPeek_empty (hc : s.ctxs[s.cur]? = some c) (hpeek : s.ring.peek c.args.index.toNat = none) :
    execRbPeek s = .next (s.setCtx (c.done .empty)) := by
  have hctx := State.ctx_of hc
  rw [execRbPeek, hctx, hpeek]
  exact congrArg _ (State.raise_eq hctx _)

theorem execRbPeek_ok (hc : s.ctxs[s.cur]? = some c) {e : Slot} (hpeek : s.ring.peek c.args.index.toNat = some e) :
    execRbPeek s = .next (s.setCtx ((c.takeSlot e).done .ok)) := by
  rw [execRbPeek, State.ctx_of hc, hpeek]
  exact congrArg _ (State.setCtx_finish (State.cur_lt hc) _ _)

end

/-- Settles O28, by the check of RX_LEN and what a push does to the queue. -/
theorem rbPushResult : Obligations.RbPushResult := by
  refine ⟨decode_encode .rbPush, fun s c hc => ⟨execRbPush_badOperand hc, fun hlen hok => ?_⟩⟩
  obtain ⟨hok', hunread⟩ := Ring.push_spec hok (ts := c.args.time) (c.rxFrame_length.trans_le hlen)
  rw [Ctx.slotOf_rxFrame] at hunread
  exact ⟨_, _, execRbPush_ok hc hlen, hok', hunread, c.read_rxFrame, rfl, rfl⟩

/-- Settles O29: a pop takes the head of the queue, and RX_BUF then reads as that slot. -/
theorem rbPopResult : Obligations.RbPopResult := by
  refine ⟨decode_encode .rbPop, fun s c hc hwf hok => ⟨fun hnil => ?_, fun e rest hcons => ?_⟩⟩
  · exact execRbPop_empty hc (Ring.pop_of_unread_nil hnil)
  · obtain ⟨r, hpop, hok', hunread, hslots, hhead⟩ := Ring.pop_spec hok hcons
    have he : e ∈ s.ring.unread := hcons ▸ List.mem_cons_self
    exact ⟨r, _, execRbPop_ok hc hpop, hok', hunread, hslots, hhead, takeSlot_spec hwf (Ring.unread_ok hok he)⟩

/-- Settles O30: a peek looks the index up in the queue, and RX_BUF then reads as the slot found. -/
theorem rbPeekResult : Obligations.RbPeekResult := by
  refine ⟨decode_encode .rbPeek, fun s c hc hwf hok => ⟨fun hnone => ?_, fun e hsome => ?_⟩⟩
  · exact execRbPeek_empty hc ((s.ring.peek_eq_unread _).trans hnone)
  · exact ⟨_, execRbPeek_ok hc ((s.ring.peek_eq_unread _).trans hsome),
      takeSlot_spec hwf (Ring.unread_ok hok (List.mem_of_getElem? hsome))⟩

/-! ## A drain pass (43_ring_buffer.md R113) -/

/-- The state after a pass that took the frames `fs` and made the port events `stop` behind them, with the answers `ws` and `qs`
left. -/
def State.drained (s : State) (r : Ring) (fs : List (List Byte)) (stop : List PortEvent) (ws : List Bool)
    (qs : List ReadAnswer) (n : Nat) : State :=
  { s with
    ring := r
    events := s.events ++ fs.flatMap (fun f => [.hasFrameWaiting true, .readFrame 67 (.ok f)]) ++ stop
    env := { s.env with waitAnswers := ws, readAnswers := qs, drawNo := n } }

/-- The pass queues `fs` with the time NOW behind what was unread, loses nothing, and then ends with the events `stop`. -/
def State.DrainsTo (s : State) (fs : List (List Byte)) (stop : List PortEvent) (ws : List Bool) (qs : List ReadAnswer) : Prop :=
  ∃ r n, s.drain = s.drained r fs stop ws qs n ∧ r.ok = true ∧ r.tail = s.ring.tail
    ∧ r.unread = s.ring.unread ++ fs.map (fun f => slotOf f s.now)

theorem State.drainLoop_of_full {s : State} (hfull : s.ring.count = 5) (n : Nat) : State.drainLoop n s = s := by
  cases n with
  | zero => rfl
  | succ n => rw [State.drainLoop, if_pos hfull]

theorem State.drainLoop_of_not_waiting {s : State} (hroom : s.ring.count ≠ 5) {ws : List Bool}
    (hws : s.env.waitAnswers = false :: ws) (n : Nat) : State.drainLoop (n + 1) s = s.afterWait := by
  have hwait : s.waitAnswer = false := by rw [State.waitAnswer, hws]
  rw [State.drainLoop, if_neg hroom, if_neg (by simp [hwait])]

theorem State.drainLoop_of_read_err {s : State} (hroom : s.ring.count ≠ 5) {ws : List Bool} {qs : List ReadAnswer}
    (hws : s.env.waitAnswers = true :: ws) (hqs : s.env.readAnswers = .err :: qs) (n : Nat) :
    State.drainLoop (n + 1) s = s.afterWait.afterRead := by
  have hwait : s.waitAnswer = true := by rw [State.waitAnswer, hws]
  have hread : s.afterWait.readAnswer = .err := by rw [State.readAnswer, State.afterWait_env, hqs]; rfl
  rw [State.drainLoop, if_neg hroom, if_pos hwait, hread]

section
variable {s : State} {fs : List (List Byte)} {stop : List PortEvent} {ws ws' : List Bool} {qs qs' : List ReadAnswer}

/-- The pass takes the frames that wait. It then goes on with the turns that are left, and how these end is how it ends. -/
theorem State.drainsTo_of_end (hok : s.ring.ok = true) (hfs : ∀ f ∈ fs, f.length ≤ 67) (hfits : fs.length + s.ring.count.val ≤ 5)
    (hws : s.env.waitAnswers = List.replicate fs.length true ++ ws) (hqs : s.env.readAnswers = fs.map .ok ++ qs)
    (hend : ∀ r m, r.count.val = fs.length + s.ring.count.val →
      ∃ n, State.drainLoop (5 - fs.length) (s.drained r fs [] ws qs m) = s.drained r fs stop ws' qs' n) :
    s.DrainsTo fs stop ws' qs' := by
  obtain ⟨r, m, hloop, hr, hcount, hunread, htail⟩ := State.drainLoop_frames fs s 5 ws qs hok hfs hfits (by omega) hws hqs
  obtain ⟨n, hstop⟩ := hend r m hcount
  refine ⟨r, n, ?_, hr, htail, hunread⟩
  rw [← hstop, State.drain, hloop, State.drained, List.append_nil]

theorem State.drainsTo_full (hok : s.ring.ok = true) (hfs : ∀ f ∈ fs, f.length ≤ 67) (hfull : fs.length + s.ring.count.val = 5)
    (hws : s.env.waitAnswers = List.replicate fs.length true ++ ws) (hqs : s.env.readAnswers = fs.map .ok ++ qs) :
    s.DrainsTo fs [] ws qs :=
  State.drainsTo_of_end hok hfs hfull.le hws hqs fun _ m hcount =>
    ⟨m, State.drainLoop_of_full (Fin.ext (hcount.trans hfull)) _⟩

/-- Where there is room for one more frame, a turn is left and the buffer is not full. -/
theorem room_after_frames {k : Nat} {count count' : Fin 6} (hroom : k + count.val < 5) (hcount : count'.val = k + count.val) :
    (∃ n, 5 - k = n + 1) ∧ count' ≠ 5 := by
  refine ⟨⟨4 - k, by omega⟩, fun hfull => ?_⟩
  rw [hfull] at hcount
  exact hroom.ne hcount.symm

theorem State.drainsTo_not_waiting (hok : s.ring.ok = true) (hfs : ∀ f ∈ fs, f.length ≤ 67)
    (hroom : fs.length + s.ring.count.val < 5) (hws : s.env.waitAnswers = List.replicate fs.length true ++ false :: ws)
    (hqs : s.env.readAnswers = fs.map .ok ++ qs) : s.DrainsTo fs [.hasFrameWaiting false] ws qs := by
  refine State.drainsTo_of_end hok hfs hroom.le hws hqs fun r m hcount => ⟨m + 1, ?_⟩
  obtain ⟨⟨n, hturns⟩, hnotFull⟩ := room_after_frames hroom hcount
  rw [hturns, State.drainLoop_of_not_waiting hnotFull rfl]
  simp [State.drained, State.afterWait, State.waitAnswer]

theorem State.drainsTo_read_err (hok : s.ring.ok = true) (hfs : ∀ f ∈ fs, f.length ≤ 67)
    (hroom : fs.length + s.ring.count.val < 5) (hws : s.env.waitAnswers = List.replicate fs.length true ++ true :: ws)
    (hqs : s.env.readAnswers = fs.map .ok ++ .err :: qs) :
    s.DrainsTo fs [.hasFrameWaiting true, .readFrame 67 .err] ws qs := by
  refine State.drainsTo_of_end hok hfs hroom.le hws hqs fun r m hcount => ⟨m + 2, ?_⟩
  obtain ⟨⟨n, hturns⟩, hnotFull⟩ := room_after_frames hroom hcount
  rw [hturns, State.drainLoop_of_read_err hnotFull rfl rfl]
  simp [State.drained, State.afterWait, State.afterRead, State.waitAnswer, State.readAnswer, clipAnswer, frameMax]

end

/-! ## RB_DRAIN -/

section
variable {s : State} {c : Ctx}

theorem State.drain_ctx (s : State) : s.drain.ctx = s.ctx := by
  obtain ⟨r, es, q, hdrain, -⟩ := s.drain_frame
  rw [hdrain]
  rfl

theorem execRbDrain_notLockOwner (hc : s.ctxs[s.cur]? = some c) (hgate : s.holdsGate = false) :
    execRbDrain s = .next (s.setCtx (c.done .notLockOwner)) := by
  rw [execRbDrain, if_neg (by simp [hgate]), State.raise_eq (State.ctx_of hc)]

theorem execRbDrain_ok (hc : s.ctxs[s.cur]? = some c) (hgate : s.holdsGate = true) :
    execRbDrain s = .next (s.drain.setCtx (c.done .ok)) := by
  rw [execRbDrain, if_pos hgate, State.finish_eq (s.drain_ctx.trans (State.ctx_of hc))]

theorem execRbDrain_of_drainsTo (hc : s.ctxs[s.cur]? = some c) (hgate : s.holdsGate = true) {fs : List (List Byte)}
    {stop : List PortEvent} {ws : List Bool} {qs : List ReadAnswer} (h : s.DrainsTo fs stop ws qs) :
    ∃ r n, execRbDrain s = .next ((s.drained r fs stop ws qs n).setCtx (c.done .ok)) ∧ r.ok = true ∧ r.tail = s.ring.tail
      ∧ r.unread = s.ring.unread ++ fs.map (fun f => slotOf f s.now) := by
  obtain ⟨r, n, hdrain, hqueue⟩ := h
  exact ⟨r, n, hdrain ▸ execRbDrain_ok hc hgate, hqueue⟩

end

/-- Settles O32, by the gate check and the three ends of a pass. -/
theorem rbDrainResult : Obligations.RbDrainResult := by
  refine ⟨decode_encode .rbDrain, fun s c hc => ⟨fun hgate => ?_, fun fs stop ws qs hok hheld howner hfs hend => ?_,
    fun hheld howner => ?_⟩⟩
  · exact execRbDrain_notLockOwner hc (State.holdsGate_eq_false.2 hgate)
  · refine execRbDrain_of_drainsTo hc (State.holdsGate_iff.2 ⟨hheld, howner⟩) ?_
    obtain ⟨hfull, rfl, hws, hqs⟩ | ⟨hroom, rfl, hws, hqs⟩ | ⟨hroom, rfl, hws, hqs⟩ := hend
    · exact State.drainsTo_full hok hfs hfull hws hqs
    · exact State.drainsTo_not_waiting hok hfs hroom hws hqs
    · exact State.drainsTo_read_err hok hfs hroom hws hqs
  · exact execRbDrain_ok hc (State.holdsGate_iff.2 ⟨hheld, howner⟩)

end Sys2Proof.Machine
end

section
/-! SUPPORT. How the operations on a device entry end, and TRY_SEND (44_retry_sequencer.md R129 to R131). -/

namespace Sys2Proof.Machine

/-! ## The end of an operation that reports an entry -/

/-- `devReport` writes the device result registers of the issuing bank (44_retry_sequencer.md R122). -/
theorem State.setCtx_devReport {s : State} (hcur : s.cur < s.ctxs.length) {k : Nat} {e : Dev} (he : s.devs[k]? = some e)
    (c : Ctx) : (s.setCtx c).devReport k = s.setCtx { c with dev := reportOf e } := by
  rw [State.devReport, State.setCtx_ctx_of_lt hcur, State.setCtx_setCtx, State.dev_of (s := s.setCtx c) he]

theorem State.setCtx_devReport_finish {s : State} (hcur : s.cur < s.ctxs.length) {k : Nat} {e : Dev} (he : s.devs[k]? = some e)
    (c : Ctx) (code : Code) :
    ((s.setCtx c).devReport k).finish code = s.setCtx (Ctx.done { c with dev := reportOf e } code) := by
  rw [State.setCtx_devReport hcur he, State.setCtx_finish hcur]

/-- An operation that does no more than report an entry. -/
theorem State.devReport_finish {s : State} {c : Ctx} (hc : s.ctxs[s.cur]? = some c) {k : Nat} {e : Dev} (he : s.devs[k]? = some e)
    (code : Code) : (s.devReport k).finish code = s.setCtx (Ctx.done { c with dev := reportOf e } code) := by
  rw [State.devReport, State.ctx_of hc, State.dev_of he, State.setCtx_finish (State.cur_lt hc)]

/-- NOT_FOUND leaves the device result registers 0 (44_retry_sequencer.md R122). -/
theorem State.setCtx_devReportNone_raise {s : State} (hcur : s.cur < s.ctxs.length) (c : Ctx) (code : Code) :
    (s.setCtx c).devReportNone.raise code = s.setCtx (Ctx.done { c with dev := DevReport.reset } code) := by
  rw [State.devReportNone, State.setCtx_ctx_of_lt hcur, State.setCtx_setCtx, State.raise, State.setCtx_finish hcur]

theorem State.devReportNone_raise {s : State} {c : Ctx} (hc : s.ctxs[s.cur]? = some c) (code : Code) :
    s.devReportNone.raise code = s.setCtx (Ctx.done { c with dev := DevReport.reset } code) := by
  rw [State.devReportNone, State.ctx_of hc, State.raise, State.setCtx_finish (State.cur_lt hc)]

/-- Only an entry with a CachedCommand has a command outstanding (10_state.md R25). -/
theorem State.hasCc_of_pending {s : State} (hr : s.registryOk = true) {k : Nat} {e : Dev} (he : s.devs[k]? = some e)
    (hpend : e.cc.pending = true) : e.hasCc = true := by
  obtain ⟨-, -, hout, -⟩ := Dev.ok_iff.1 (State.dev_ok hr he)
  exact (hout hpend).1

theorem State.outstanding_eq_pending {s : State} (hr : s.registryOk = true) {k : Nat} {e : Dev} (he : s.devs[k]? = some e) :
    (e.hasCc && e.cc.pending) = e.cc.pending := by
  cases hpend : e.cc.pending with
  | false => exact Bool.and_false _
  | true => rw [State.hasCc_of_pending hr he hpend, Bool.and_true]

/-! ## TRY_SEND -/

section
variable {s : State} {c : Ctx} {k : Nat} {e : Dev}

theorem execTrySend_notLockOwner (hc : s.ctxs[s.cur]? = some c) (hgate : s.holdsGate = false) :
    execTrySend s = .next (s.setCtx (c.done .notLockOwner)) := by
  rw [execTrySend, if_neg (by simp [hgate]), State.raise_eq (State.ctx_of hc)]

theorem execTrySend_notFound (hc : s.ctxs[s.cur]? = some c) (hgate : s.holdsGate = true)
    (hnew : s.lookup c.args.devid = none) :
    execTrySend s = .next (s.setCtx (Ctx.done { c with rSent := false, dev := DevReport.reset } .notFound)) := by
  rw [execTrySend, if_pos hgate, State.ctx_of hc, hnew]
  exact congrArg _ (State.setCtx_devReportNone_raise (State.cur_lt hc) _ _)

/-- A send keeps the issuing bank. -/
theorem State.sendCached_bank (hc : s.ctxs[s.cur]? = some c) (k : Nat) :
    (s.sendCached k).2.ctxs[(s.sendCached k).2.cur]? = some c := by
  obtain ⟨ds, a, p, es, hsend, -⟩ := s.sendCached_frame k
  rw [hsend]
  exact hc

/-- A send keeps the entry in its place. -/
theorem State.sendCached_get (he : s.devs[k]? = some e) : ∃ e', (s.sendCached k).2.devs[k]? = some e' := by
  obtain ⟨ds, a, p, es, hsend, hlen, -⟩ := s.sendCached_frame k
  rw [hsend]
  refine ⟨ds[k]'?_, List.getElem?_eq_getElem _⟩
  rw [hlen]
  exact (List.getElem?_eq_some_iff.1 he).1

/-- TRY_SEND for a known device: one `sendCached`, R_SENT, the report and the finish (44_retry_sequencer.md R130). -/
theorem execTrySend_known (hc : s.ctxs[s.cur]? = some c) (hgate : s.holdsGate = true) (hk : s.lookup c.args.devid = some k)
    {sent : Bool} {t : State} {e' : Dev} (hsend : s.sendCached k = (sent, t)) (ht : t.ctxs[t.cur]? = some c)
    (he' : t.devs[k]? = some e') :
    execTrySend s = .next (t.setCtx (Ctx.done { c with rSent := sent, dev := reportOf e' } .ok)) := by
  rw [execTrySend, if_pos hgate, State.ctx_of hc, hk]
  simp only [hsend]
  rw [State.ctx_of ht, State.setCtx_devReport_finish (State.cur_lt ht) he']

/-- Nothing outstanding: nothing is sent. -/
theorem execTrySend_idle (hc : s.ctxs[s.cur]? = some c) (hgate : s.holdsGate = true) (hk : s.lookup c.args.devid = some k)
    (he : s.devs[k]? = some e) (hout : (e.hasCc && e.cc.pending) = false) :
    execTrySend s = .next (s.setCtx (Ctx.done { c with rSent := false, dev := reportOf e } .ok)) := by
  rw [← State.dev_of he] at hout
  exact execTrySend_known hc hgate hk (State.sendCached_idle hout) hc he

/-- A spent command is cleared without a transmit. -/
theorem execTrySend_spent (hc : s.ctxs[s.cur]? = some c) (hgate : s.holdsGate = true) (hk : s.lookup c.args.devid = some k)
    (he : s.devs[k]? = some e) (hout : (e.hasCc && e.cc.pending) = true) (hz : e.cc.retries = 0) :
    execTrySend s = .next
      (({ s with devs := s.devs.set k (clearedDev e),
                 cntActive := if e.cc.active then s.cntActive - 1 else s.cntActive,
                 cntPrecached := if e.cc.active then s.cntPrecached else s.cntPrecached - 1 } : State).setCtx
        (Ctx.done { c with rSent := false, dev := reportOf (clearedDev e) } .ok)) := by
  have hdev := State.dev_of he
  have hsend := State.sendCached_spent hdev hout hz
  rw [State.clearCmd_out hdev hout] at hsend
  exact execTrySend_known hc hgate hk hsend hc (List.getElem?_set_self (List.getElem?_eq_some_iff.1 he).1)

/-- An entry after a send: one retry less, and cleared if that was the last (44_retry_sequencer.md R129). -/
def Dev.afterSend (e : Dev) : Dev := if e.cc.retries = 1 then clearedDev (sentDev e) else sentDev e

/-- The port event of a send of the entry's frame (44_retry_sequencer.md R129). -/
def State.sendEvent (s : State) (e : Dev) : PortEvent :=
  .transmit (Memory.readRange e.cc.frame 0 e.cc.flen.toNat) e.cc.flen.toNat s.cfg.txRepeat

theorem execTrySend_sends (hc : s.ctxs[s.cur]? = some c) (hgate : s.holdsGate = true) (hk : s.lookup c.args.devid = some k)
    (he : s.devs[k]? = some e) (hout : (e.hasCc && e.cc.pending) = true) (hz : e.cc.retries ≠ 0) :
    execTrySend s = .next
      (({ s with devs := s.devs.set k e.afterSend,
                 events := s.events ++ [s.sendEvent e],
                 cntActive := (if e.cc.active then s.cntActive else s.cntActive + 1) - (if e.cc.retries = 1 then 1 else 0),
                 cntPrecached := if e.cc.active then s.cntPrecached else s.cntPrecached - 1 } : State).setCtx
        (Ctx.done { c with rSent := true, dev := reportOf e.afterSend } .ok)) :=
  execTrySend_known hc hgate hk (State.sendCached_sends he hout hz) hc
    (List.getElem?_set_self (List.getElem?_eq_some_iff.1 he).1)

end

theorem Dev.afterSend_eq {e : Dev} (hpend : e.cc.pending = true) (hz : e.cc.retries ≠ 0) :
    e.afterSend = { e with cc := { e.cc with pending := decide (2 ≤ e.cc.retries.toNat),
                                             cmd := if e.cc.retries = 1 then 0 else e.cc.cmd
                                             data := if e.cc.retries = 1 then 0 else e.cc.data
                                             retries := e.cc.retries - 1, active := true } } := by
  unfold Dev.afterSend
  by_cases hlast : e.cc.retries = 1
  · simp [hlast, clearedDev, sentDev]
  · have hmore : 2 ≤ e.cc.retries.toNat := by bv_omega
    rw [if_neg hlast, if_neg hlast, if_neg hlast, decide_eq_true hmore]
    simp only [sentDev, hpend]

/-- Settles O39, by the gate check, the lookup, and the three cases of `sendCached`. -/
theorem trySendResult : Obligations.TrySendResult := by
  refine ⟨decode_encode .trySend, fun s c hc hr => ⟨fun hgate => ?_, fun hheld howner => ⟨fun hnew => ?_, fun k e he hd => ?_⟩⟩⟩
  · exact execTrySend_notLockOwner hc (State.holdsGate_eq_false.2 hgate)
  · exact execTrySend_notFound hc (State.holdsGate_iff.2 ⟨hheld, howner⟩) (State.lookup_none.2 hnew)
  · have hgate := State.holdsGate_iff.2 ⟨hheld, howner⟩
    have hk := State.lookup_of_registryOk hr he hd
    have hout := State.outstanding_eq_pending hr he
    refine ⟨?_, fun hpend => ?_, fun hpend hz => ?_, fun hpend hz => ?_⟩
    · obtain ⟨e', he'⟩ := State.sendCached_get he
      exact ⟨e', he', execTrySend_known hc hgate hk rfl (State.sendCached_bank hc k) he'⟩
    · exact execTrySend_idle hc hgate hk he (hout.trans hpend)
    · exact ⟨_, rfl, execTrySend_spent hc hgate hk he (hout.trans hpend) hz⟩
    · exact ⟨_, Dev.afterSend_eq hpend hz, execTrySend_sends hc hgate hk he (hout.trans hpend) hz⟩

/-! ## A command with n retries -/

/-- The issuing context holds the gate and names the entry `e`, whose command, if it has one outstanding, has retries left. -/
structure State.Sends (s : State) (c : Ctx) (k : Nat) (e : Dev) : Prop where
  bank : s.ctxs[s.cur]? = some c
  registry : s.registryOk = true
  gate : s.holdsGate = true
  get : s.devs[k]? = some e
  devid : e.devid = c.args.devid
  pending : e.cc.pending = decide (0 < e.cc.retries.toNat)

/-- From `s` to `t` the frame of entry `e` went out `j` times or until no retry was left, and the entry became `e'`
(44_retry_sequencer.md R129, R131). -/
structure State.SentTimes (s t : State) (e e' : Dev) (j : Nat) : Prop where
  sendEvent : t.sendEvent e' = s.sendEvent e
  events : t.events = s.events ++ List.replicate (min j e.cc.retries.toNat) (s.sendEvent e)
  retries : e'.cc.retries.toNat = e.cc.retries.toNat - j
  counters : t.cntActive + t.cntPrecached
    = s.cntActive + s.cntPrecached - (if 0 < e.cc.retries.toNat ∧ e.cc.retries.toNat ≤ j then 1 else 0)

theorem State.SentTimes.none {s t : State} {e : Dev} (hcfg : t.cfg = s.cfg) (hevents : t.events = s.events)
    (hactive : t.cntActive = s.cntActive) (hprecached : t.cntPrecached = s.cntPrecached) {j : Nat}
    (hj : j = 0 ∨ e.cc.retries.toNat = 0) : s.SentTimes t e e j := by
  refine ⟨by rw [State.sendEvent, hcfg]; rfl, ?_, by omega, ?_⟩
  · rw [hevents, show min j e.cc.retries.toNat = 0 by omega, List.replicate_zero, List.append_nil]
  · rw [hactive, hprecached, if_neg (by omega), sub_zero]

theorem State.SentTimes.trans {s t u : State} {e f g : Dev} {j : Nat} (h : s.SentTimes t e f 1) (h' : t.SentTimes u f g j) :
    s.SentTimes u e g (j + 1) := by
  have hleft := h.retries
  refine ⟨h'.sendEvent.trans h.sendEvent, ?_, by rw [h'.retries, hleft]; omega, ?_⟩
  · rw [h'.events, h.events, h.sendEvent, List.append_assoc, List.replicate_append_replicate, hleft]
    congr 2
    omega
  · rw [h'.counters, h.counters, hleft]
    by_cases hlast : e.cc.retries.toNat = 1
    · rw [if_pos (by omega), if_neg (by omega), if_pos (by omega), sub_zero]
    · rw [if_neg (by omega), sub_zero]
      congr 2
      exact propext (by omega)

theorem exec_registryOk {i : Instr} {s t : State} (h : exec i s = .next t) (hr : s.registryOk = true) : t.registryOk = true :=
  (exec_edits h).keep State.Edit.registryOk hr

/-- One TRY_SEND of the holder transmits what has retries left once (44_retry_sequencer.md R129). -/
theorem State.Sends.step {s : State} {c : Ctx} {k : Nat} {e : Dev} (h : s.Sends c k e) :
    ∃ t c' e', exec .trySend s = .next t ∧ t.Sends c' k e' ∧ s.SentTimes t e e' 1 := by
  have hk := State.lookup_of_registryOk h.registry h.get h.devid
  have hout := State.outstanding_eq_pending h.registry h.get
  have hcur := State.cur_lt h.bank
  have hlen : k < s.devs.length := (List.getElem?_eq_some_iff.1 h.get).1
  by_cases hz : e.cc.retries = 0
  · have hidle : (e.hasCc && e.cc.pending) = false := by simp [h.pending, hz]
    have hexec := execTrySend_idle h.bank h.gate hk h.get hidle
    refine ⟨_, _, e, hexec, ⟨State.setCtx_get hcur _, exec_registryOk (i := .trySend) hexec h.registry, h.gate, h.get, h.devid,
      h.pending⟩, ?_⟩
    have hzero : e.cc.retries.toNat = 0 := congrArg BitVec.toNat hz
    refine State.SentTimes.none ?_ ?_ ?_ ?_ (.inr hzero)
    all_goals rfl
  · have hpos : 0 < e.cc.retries.toNat := by bv_omega
    have hpend : e.cc.pending = true := h.pending.trans (decide_eq_true hpos)
    have hexec := execTrySend_sends h.bank h.gate hk h.get (hout.trans hpend) hz
    have hleft : (e.cc.retries - 1).toNat = e.cc.retries.toNat - 1 := by bv_omega
    have hafter := Dev.afterSend_eq hpend hz
    refine ⟨_, _, e.afterSend, hexec,
      ⟨State.setCtx_get hcur _, exec_registryOk (i := .trySend) hexec h.registry, h.gate,
        List.getElem?_set_self hlen, ?_, ?_⟩, ?_, ?_, ?_, ?_⟩
    all_goals rw [hafter]
    · exact h.devid
    · simp only [hleft, decide_eq_decide]
      omega
    · rfl
    · simp [show min 1 e.cc.retries.toNat = 1 by omega]
    · exact hleft
    · have hlast : (e.cc.retries = 1) ↔ (0 < e.cc.retries.toNat ∧ e.cc.retries.toNat ≤ 1) := by bv_omega
      simp only [← hlast]
      cases e.cc.active <;> simp <;> ring

/-- `j` TRY_SENDs, by induction on `j`. -/
theorem State.Sends.repeated {s : State} {c : Ctx} {k : Nat} {e : Dev} (h : s.Sends c k e) (j : Nat) :
    ∃ t c' e', s.repeatOp .trySend j = some t ∧ t.Sends c' k e' ∧ s.SentTimes t e e' j := by
  induction j generalizing s c e with
  | zero => exact ⟨s, c, e, rfl, h, .none rfl rfl rfl rfl (.inl rfl)⟩
  | succ j ih =>
    obtain ⟨u, c', f, hexec, hu, hsent⟩ := h.step
    obtain ⟨t, c'', g, hrun, ht, hsent'⟩ := ih hu
    refine ⟨t, c'', g, ?_, ht, hsent.trans hsent'⟩
    rw [State.repeatOp, hexec]
    exact hrun

/-- Settles O40: the entry stays one with retries left or nothing outstanding, and each TRY_SEND takes one retry. -/
theorem sendsExactlyRetries : Obligations.SendsExactlyRetries := by
  intro s c k e hc hr hheld howner he hd hpend hretries j
  have hsends : s.Sends c k e :=
    ⟨hc, hr, State.holdsGate_iff.2 ⟨hheld, howner⟩, he, hd, hpend.trans (decide_eq_true hretries).symm⟩
  obtain ⟨t, c', e', hrun, ht, hsent⟩ := hsends.repeated j
  refine ⟨t, e', hrun, ht.get, hsent.events, hsent.retries, ?_, ?_⟩
  · rw [ht.pending, hsent.retries, decide_eq_decide]
    omega
  · rw [hsent.counters]
    congr 2
    exact propext (by omega)

end Sys2Proof.Machine
end

section
/-! SUPPORT. The device registry (44_retry_sequencer.md section 1): what PRODUCT_TABLE says of a product, the device result registers
of an entry, and the operations DEV_CREATE, DEV_QUERY and DEV_LIST. -/

namespace Sys2Proof.Machine

/-! ## Rows of a table -/

/-- The one element that meets a test is the one that is found. -/
theorem find?_of_unique {α : Type} {l : List α} {p : α → Bool} {a : α} (ha : a ∈ l) (hp : p a = true)
    (hunique : ∀ b ∈ l, p b = true → b = a) : l.find? p = some a := by
  cases hfind : l.find? p with
  | none => exact absurd hp (List.find?_eq_none.1 hfind a ha)
  | some b => rw [hunique b (List.mem_of_find?_eq_some hfind) (List.find?_some hfind)]

/-- The one row of a product gives its class, extension and wake gate (44_retry_sequencer.md R120). -/
theorem productInfo_of_unique {cfg : Config} {r : ProductRow} (hr : r ∈ cfg.productTable)
    (hunique : ∀ q ∈ cfg.productTable, q.prod = r.prod → q = r) :
    productInfo cfg r.prod = { cls := kindClass r.kind, ext := kindExt r.kind, wakeGated := r.wakeGated } := by
  have hfind : cfg.productTable.find? (fun q => q.prod == r.prod) = some r :=
    find?_of_unique hr (beq_self_eq_true _) fun q hq hprod => hunique q hq (eq_of_beq hprod)
  rw [productInfo, hfind]

/-- A product without a row gets the sentinel (44_retry_sequencer.md R120). -/
theorem productInfo_of_unknown {cfg : Config} {prod : Byte} (hnone : ∀ r ∈ cfg.productTable, r.prod ≠ prod) :
    productInfo cfg prod = { cls := .none, ext := .none, wakeGated := false } := by
  have hfind : cfg.productTable.find? (fun r => r.prod == prod) = none :=
    List.find?_eq_none.2 fun r hr hprod => hnone r hr (eq_of_beq hprod)
  rw [productInfo, hfind]

/-! ## `getOrCreate` (44_retry_sequencer.md R121) -/

section
variable {s : State} {d : BitVec 24}

theorem State.getOrCreate_known {k : Nat} (hk : s.lookup d = some k) (m p : Byte) (j n : Bool) (ts : BitVec 64) :
    s.getOrCreate d m p j n ts = some (k, false, s) := by
  rw [State.getOrCreate, hk]

theorem State.getOrCreate_full (hnew : s.lookup d = none) (hfull : s.devs.length = s.cfg.devMax) (m p : Byte) (j n : Bool)
    (ts : BitVec 64) : s.getOrCreate d m p j n ts = none := by
  rw [State.getOrCreate, hnew]
  exact if_pos hfull

theorem State.getOrCreate_new (hnew : s.lookup d = none) (hroom : s.devs.length < s.cfg.devMax) (m p : Byte) (j n : Bool)
    (ts : BitVec 64) : s.getOrCreate d m p j n ts
      = some (s.devs.length, true, { s with devs := s.devs ++ [newDev s.cfg d m p j n ts] }) := by
  rw [State.getOrCreate, hnew]
  exact if_neg hroom.ne

end

/-! ## The device result registers (44_retry_sequencer.md R122) -/

theorem reportOf_cls (e : Dev) :
    (reportOf e).cls.toNat = (match e.cls with | .none => 0 | .always => 1 | .smallWindow => 2) := by
  show (classCode e.cls).toNat = _
  cases e.cls <;> rfl

theorem reportOf_ext (e : Dev) :
    (reportOf e).ext.toNat = (match e.ext with | .none => 0 | .valve => 1 | .thermostat => 2) := by
  show (extCode e.ext).toNat = _
  cases e.ext <;> rfl

theorem reportOf_outstanding {e : Dev} (hcc : e.hasCc = true) (hpend : e.cc.pending = true) :
    (reportOf e).pending = true ∧ (reportOf e).cmdId = e.cc.cmd ∧ (reportOf e).data = e.cc.data
      ∧ (reportOf e).retries = e.cc.retries ∧ (reportOf e).active = e.cc.active := by
  simp [reportOf, hcc, hpend]

theorem reportOf_idle {e : Dev} (hidle : ¬(e.hasCc = true ∧ e.cc.pending = true)) :
    (reportOf e).pending = false ∧ (reportOf e).cmdId = 0 ∧ (reportOf e).data = 0 ∧ (reportOf e).retries = 0
      ∧ (reportOf e).active = false := by
  have hout : (e.hasCc && e.cc.pending) = false := by rwa [← Bool.not_eq_true, Bool.and_eq_true]
  simp [reportOf, hout]

theorem reportOf_thermostat {e : Dev} (hext : e.ext = .thermostat) :
    (reportOf e).tMode = e.th.mode ∧ (reportOf e).tModeKnown = e.th.modeKnown ∧ (reportOf e).tLast = e.th.lastTel := by
  simp [reportOf, hext]

theorem reportOf_no_thermostat {e : Dev} (hext : e.ext ≠ .thermostat) :
    (reportOf e).tMode = 0 ∧ (reportOf e).tModeKnown = false ∧ (reportOf e).tLast = 0 := by
  simp [reportOf, hext]

/-! ## The operations -/

section
variable {s : State} {c : Ctx} {k : Nat} {e : Dev}

/-- DEV_CREATE reports the entry that `getOrCreate` gives (44_retry_sequencer.md R123). -/
theorem execDevCreate_of_entry (hc : s.ctxs[s.cur]? = some c) {created : Bool} {t : State}
    (hg : s.getOrCreate c.args.devid c.args.mfr c.args.prod (c.args.flags.getLsbD 0) (c.args.flags.getLsbD 1) s.now
      = some (k, created, t)) (ht : t.ctxs[t.cur]? = some c) (he : t.devs[k]? = some e) :
    execDevCreate s = .next (t.setCtx (Ctx.done { c with rCreated := created, dev := reportOf e } .ok)) := by
  rw [execDevCreate, State.ctx_of hc]
  simp only [hg]
  rw [State.ctx_of ht, State.setCtx_devReport_finish (State.cur_lt ht) he]

theorem execDevCreate_full (hc : s.ctxs[s.cur]? = some c) (hnew : s.lookup c.args.devid = none)
    (hfull : s.devs.length = s.cfg.devMax) :
    execDevCreate s = .next (({ s with fatal := true } : State).setCtx (c.done .capacityExceeded)) := by
  have hctx := State.ctx_of hc
  rw [execDevCreate, hctx]
  simp only [State.getOrCreate_full hnew hfull]
  exact congrArg _ (State.raise_eq (s := s.setFatal) hctx _)

theorem execDevQuery_notFound (hc : s.ctxs[s.cur]? = some c) (hnew : s.lookup c.args.devid = none) :
    execDevQuery s = .next (s.setCtx (Ctx.done { c with dev := DevReport.reset } .notFound)) := by
  rw [execDevQuery, State.ctx_of hc, hnew]
  exact congrArg _ (State.devReportNone_raise hc _)

theorem execDevQuery_known (hc : s.ctxs[s.cur]? = some c) (hk : s.lookup c.args.devid = some k) (he : s.devs[k]? = some e) :
    execDevQuery s = .next (s.setCtx (Ctx.done { c with dev := reportOf e } .ok)) := by
  rw [execDevQuery, State.ctx_of hc, hk]
  exact congrArg _ (State.devReport_finish hc he _)

theorem execDevList_notFound (hc : s.ctxs[s.cur]? = some c) (hlen : s.devs.length ≤ c.args.index.toNat) :
    execDevList s = .next (s.setCtx (Ctx.done { c with dev := DevReport.reset } .notFound)) := by
  rw [execDevList, State.ctx_of hc, if_pos hlen, State.devReportNone_raise hc]

theorem execDevList_known (hc : s.ctxs[s.cur]? = some c) (he : s.devs[c.args.index.toNat]? = some e) :
    execDevList s = .next (s.setCtx (Ctx.done { c with dev := reportOf e } .ok)) := by
  have hlen := (List.getElem?_eq_some_iff.1 he).1
  rw [execDevList, State.ctx_of hc, if_neg hlen.not_ge, State.devReport_finish hc he]

end

/-- Settles O33, by the cases of `getOrCreate`. -/
theorem devCreateResult : Obligations.DevCreateResult := by
  refine ⟨decode_encode .devCreate, fun cfg prod => ⟨fun r hr hprod hunique => ?_, productInfo_of_unknown⟩,
    fun s c hc => ⟨fun k e hr he hd => ?_, fun hnew => ?_, fun hnew hroom => ?_⟩⟩
  · subst hprod
    rw [productInfo_of_unique hr hunique]
    cases r.kind <;> rfl
  · exact execDevCreate_of_entry hc (State.getOrCreate_known (State.lookup_of_registryOk hr he hd) ..) hc he
  · exact execDevCreate_full hc (State.lookup_none.2 hnew)
  · exact ⟨_, execDevCreate_of_entry hc (State.getOrCreate_new (State.lookup_none.2 hnew) hroom ..) hc
      (List.getElem?_concat_length ..), rfl⟩

/-- Settles O34: the two lookups, and the registers of an entry by its outstanding command and its extension. -/
theorem devQueryListResult : Obligations.DevQueryListResult := by
  refine ⟨decode_encode .devQuery, decode_encode .devList, fun s c hc hr => ⟨fun k e he hd => ?_, fun hnew => ?_, fun e he => ?_,
    execDevList_notFound hc, fun e => ⟨?_, reportOf_outstanding, reportOf_idle, reportOf_thermostat, reportOf_no_thermostat⟩⟩⟩
  · exact execDevQuery_known hc (State.lookup_of_registryOk hr he hd) he
  · exact execDevQuery_notFound hc (State.lookup_none.2 hnew)
  · exact execDevList_known hc he
  · exact ⟨rfl, rfl, rfl, rfl, reportOf_cls e, reportOf_ext e, rfl, rfl, rfl⟩

end Sys2Proof.Machine
end

section
/-! SUPPORT. CACHE_CMD (44_retry_sequencer.md R126 to R128): its errors, the cancel, and the command that it stores. -/

namespace Sys2Proof.Machine

/-- A draw of value bytes changes nothing but the environment. -/
theorem ValueBytes.env_only {s u : State} {r : CmdRow} {d : BitVec 32} {v : List Byte} (h : ValueBytes s r d v u) :
    ∃ q, u = { s with env := q } := by
  rcases h with ⟨-, rfl⟩ | ⟨-, -, rfl⟩
  · exact ⟨u.env, rfl⟩
  · exact ⟨_, rfl⟩

section
variable {s u : State} {c : Ctx} {k : Nat} {e : Dev} {r : CmdRow} {v : List Byte}

/-! ## What is stored -/

/-- The frame of a stored command is that of its one record (44_retry_sequencer.md R127), as FRAME keeps it. -/
theorem commandFrame_stored (key m p : Byte) (devid : BitVec 24) (pip : BitVec 16) (hv : v.length = r.len.toNat) :
    Memory.Stored 67 [] 0 (frameBytes key m p devid (commandBytes r v) pip)
      (Memory.ofBytes (frameBytes key m p devid (commandBytes r v) pip)) := by
  have hlen := r.len.isLt
  refine Memory.stored_ofBytes ?_
  rw [frameBytes_length, commandBytes_length hv]
  omega

theorem commandFrame_length (key m p : Byte) (devid : BitVec 24) (pip : BitVec 16) (hv : v.length = r.len.toNat) :
    (frameBytes key m p devid (commandBytes r v) pip).length = 13 + r.len.toNat := by
  rw [frameBytes_length, commandBytes_length hv]
  omega

/-- The entry `e` with the command of the arguments stored and its frame built from the record `rec` (44_retry_sequencer.md R128). -/
def State.cachedDev (u : State) (c : Ctx) (e : Dev) (rec : List Byte) : Dev :=
  attachedDev e c.args.cmd c.args.data c.args.retries (frameBytes u.cfg.cryptKey e.mfr e.prod c.args.devid rec u.nonce)

/-- How CACHE_CMD ends with an attach, whatever that leaves as the entry (44_retry_sequencer.md R128). -/
theorem State.cacheRecord_of_attach (hc : u.ctxs[u.cur]? = some c) (hdev : u.dev k = e) (created : Bool) {rec : List Byte}
    {t : State} {e' : Dev} (hattach : u.afterNonce.attachCmd k c.args.cmd c.args.data c.args.retries
      (frameBytes u.cfg.cryptKey e.mfr e.prod c.args.devid rec u.nonce) = t)
    (ht : t.ctxs[t.cur]? = some c) (he' : t.devs[k]? = some e') :
    u.cacheRecord k created rec
      = t.setCtx (Ctx.done { c with rPip := u.nonce, rCreated := created, dev := reportOf e' } .ok) := by
  have hctx : u.afterNonce.ctx = c := State.ctx_of hc
  have hentry : u.afterNonce.dev k = e := hdev
  unfold State.cacheRecord
  simp only [hctx, hentry, State.afterNonce_cfg, hattach, State.ctx_of ht]
  exact State.setCtx_devReport_finish (State.cur_lt ht) he' _ _

/-- The command and its frame are stored on the entry, and a new command is counted (44_retry_sequencer.md R127, R128). -/
theorem State.cacheRecord_eq (hc : u.ctxs[u.cur]? = some c) (he : u.devs[k]? = some e) (created : Bool) (rec : List Byte) :
    u.cacheRecord k created rec =
      ({ u.afterNonce with
          devs := u.devs.set k (u.cachedDev c e rec),
          cntActive := if e.cc.pending then u.cntActive else if e.seen then u.cntActive + 1 else u.cntActive,
          cntPrecached := if e.cc.pending then u.cntPrecached
            else if e.seen then u.cntPrecached else u.cntPrecached + 1 } : State).setCtx
        (Ctx.done { c with rPip := u.nonce, rCreated := created, dev := reportOf (u.cachedDev c e rec) } .ok) :=
  State.cacheRecord_of_attach hc (State.dev_of he) created
    (State.attachCmd_eq (s := u.afterNonce) (State.dev_of he) _ _ _ _) hc
    (List.getElem?_set_self (List.getElem?_eq_some_iff.1 he).1)

/-! ## An unknown device -/

theorem execCacheCmd_unknown (hc : s.ctxs[s.cur]? = some c) (hnew : s.lookup c.args.devid = none) :
    execCacheCmd s = .next s.cacheUnknown := by
  rw [execCacheCmd, State.ctx_of hc, hnew]

theorem State.cacheUnknown_cancel (hc : s.ctxs[s.cur]? = some c) (hcmd : c.args.cmd = 0) :
    s.cacheUnknown = s.setCtx (c.done .cancelUnknownDevice) := by
  have hctx := State.ctx_of hc
  rw [State.cacheUnknown, hctx]
  exact (if_pos hcmd).trans (State.raise_eq hctx _)

theorem State.cacheUnknown_notCacheable (hc : s.ctxs[s.cur]? = some c) (hcmd : c.args.cmd ≠ 0)
    (hcls : (productInfo s.cfg c.args.prod).cls ≠ .smallWindow) :
    s.cacheUnknown = s.setCtx (c.done .deviceNotCacheable) := by
  have hctx := State.ctx_of hc
  rw [State.cacheUnknown, hctx]
  exact (if_neg hcmd).trans ((if_neg hcls).trans (State.raise_eq hctx _))

theorem State.cacheUnknown_unknownCommand (hc : s.ctxs[s.cur]? = some c) (hcmd : c.args.cmd ≠ 0)
    (hcls : (productInfo s.cfg c.args.prod).cls = .smallWindow) (hrow : cmdLookup s.cfg c.args.cmd = none) :
    s.cacheUnknown = s.setCtx (c.done .unknownCommand) := by
  have hctx := State.ctx_of hc
  rw [State.cacheUnknown, hctx]
  simp only [if_neg hcmd, if_pos hcls, State.encRecord_unknown hrow]
  exact State.raise_eq hctx _

/-- Past those three errors, CACHE_CMD encodes the command, and looks for room after the draw (44_retry_sequencer.md R128). -/
theorem State.cacheUnknown_full (hc : s.ctxs[s.cur]? = some c) (hnew : s.lookup c.args.devid = none) (hcmd : c.args.cmd ≠ 0)
    (hcls : (productInfo s.cfg c.args.prod).cls = .smallWindow) (hrow : cmdLookup s.cfg c.args.cmd = some r)
    (hv : ValueBytes s r c.args.data v u) (hfull : s.devs.length = s.cfg.devMax) :
    s.cacheUnknown = ({ u with fatal := true } : State).setCtx (c.done .capacityExceeded) := by
  have hg : u.getOrCreate c.args.devid u.cfg.mfrDefault c.args.prod false false u.now = none := by
    obtain ⟨q, rfl⟩ := hv.env_only
    exact State.getOrCreate_full (s := { s with env := q }) hnew hfull ..
  rw [State.cacheUnknown, State.ctx_of hc]
  simp only [if_neg hcmd, if_pos hcls, State.encRecord_of hrow hv, hg]
  exact State.raise_eq (s := u.setFatal) (State.ctx_of (hv.bank hc)) _

/-- With room, the entry is created as not seen, and the command stored on it. -/
theorem State.cacheUnknown_creates (hc : s.ctxs[s.cur]? = some c) (hnew : s.lookup c.args.devid = none) (hcmd : c.args.cmd ≠ 0)
    (hcls : (productInfo s.cfg c.args.prod).cls = .smallWindow) (hrow : cmdLookup s.cfg c.args.cmd = some r)
    (hv : ValueBytes s r c.args.data v u) (hroom : s.devs.length < s.cfg.devMax) {e : Dev}
    (he : e = u.cachedDev c (newDev s.cfg c.args.devid s.cfg.mfrDefault c.args.prod false false s.now) (commandBytes r v)) :
    s.cacheUnknown = ({ u.afterNonce with devs := s.devs ++ [e], cntPrecached := s.cntPrecached + 1 } : State).setCtx
      (Ctx.done { c with rPip := u.nonce, rCreated := true, dev := reportOf e } .ok) := by
  have hset : (s.devs ++ [newDev s.cfg c.args.devid s.cfg.mfrDefault c.args.prod false false s.now]).set s.devs.length e
      = s.devs ++ [e] := by simp
  have henc := State.encRecord_of hrow hv
  obtain ⟨q, rfl⟩ := hv.env_only
  have hg := State.getOrCreate_new (s := { s with env := q }) hnew hroom s.cfg.mfrDefault c.args.prod false false s.now
  rw [State.cacheUnknown, State.ctx_of hc]
  simp only [if_neg hcmd, if_pos hcls, henc, hg]
  rw [← commandBytes_eq hv.length, State.cacheRecord_eq (by exact hc) (List.getElem?_concat_length ..), ← hset, he]
  rfl

/-! ## A known device -/

theorem execCacheCmd_known (hc : s.ctxs[s.cur]? = some c) (hk : s.lookup c.args.devid = some k) :
    execCacheCmd s = .next (s.cacheKnown k) := by
  rw [execCacheCmd, State.ctx_of hc, hk]

theorem State.cacheKnown_notCacheable (hc : s.ctxs[s.cur]? = some c) (he : s.devs[k]? = some e) (hcmd : c.args.cmd ≠ 0)
    (hcc : e.hasCc = false) : s.cacheKnown k = s.setCtx (c.done .deviceNotCacheable) := by
  have hctx := State.ctx_of hc
  rw [State.cacheKnown, hctx, State.dev_of he]
  exact (if_neg hcmd).trans ((if_neg (by simp [hcc])).trans (State.raise_eq hctx _))

theorem State.cacheKnown_unknownCommand (hc : s.ctxs[s.cur]? = some c) (he : s.devs[k]? = some e) (hcmd : c.args.cmd ≠ 0)
    (hcc : e.hasCc = true) (hrow : cmdLookup s.cfg c.args.cmd = none) :
    s.cacheKnown k = s.setCtx (c.done .unknownCommand) := by
  have hctx := State.ctx_of hc
  rw [State.cacheKnown, hctx, State.dev_of he]
  simp only [if_neg hcmd, if_pos hcc, State.encRecord_unknown hrow]
  exact State.raise_eq hctx _

theorem State.cacheKnown_stores (hc : s.ctxs[s.cur]? = some c) (he : s.devs[k]? = some e) (hcmd : c.args.cmd ≠ 0)
    (hcc : e.hasCc = true) (hrow : cmdLookup s.cfg c.args.cmd = some r) (hv : ValueBytes s r c.args.data v u) :
    s.cacheKnown k = u.cacheRecord k false (commandBytes r v) := by
  rw [State.cacheKnown, State.ctx_of hc, State.dev_of he, commandBytes_eq hv.length]
  simp only [if_neg hcmd, if_pos hcc, State.encRecord_of hrow hv]

/-- A cancel clears what is outstanding and reports the entry (44_retry_sequencer.md R126). -/
theorem State.cacheKnown_cancel (hc : s.ctxs[s.cur]? = some c) (hcmd : c.args.cmd = 0) {t : State} (hclear : s.clearCmd k = t)
    (ht : t.ctxs[t.cur]? = some c) (he : t.devs[k]? = some e) :
    s.cacheKnown k = t.setCtx (Ctx.done { c with rCreated := false, dev := reportOf e } .ok) := by
  subst hclear
  rw [State.cacheKnown, State.ctx_of hc]
  simp only [if_pos hcmd, State.ctx_of ht]
  exact State.setCtx_devReport_finish (State.cur_lt ht) he _ _

end

/-- CNT_ACTIVE counts a new command on an entry that was seen (44_retry_sequencer.md R127). -/
theorem countNewActive (pending seen : Bool) (n : BitVec 16) :
    (if pending then n else if seen then n + 1 else n) = if !pending && seen then n + 1 else n := by
  cases pending <;> rfl

/-- CNT_PRECACHED counts one on an entry that was not seen. -/
theorem countNewPrecached (pending seen : Bool) (n : BitVec 16) :
    (if pending then n else if seen then n else n + 1) = if !pending && !seen then n + 1 else n := by
  cases pending <;> cases seen <;> rfl

/-! ## The statements -/

/-- Settles O35, by the order of the checks. -/
theorem cacheCmdErrors : Obligations.CacheCmdErrors := by
  intro s c hc
  refine ⟨fun hids => ?_, fun k e hr he hd hcmd => ?_⟩
  · have hnew := State.lookup_none.2 hids
    rw [show exec .cacheCmd s = .next s.cacheUnknown from execCacheCmd_unknown hc hnew]
    exact ⟨fun hcmd => congrArg _ (State.cacheUnknown_cancel hc hcmd),
      fun hcmd hcls => congrArg _ (State.cacheUnknown_notCacheable hc hcmd hcls),
      fun hcmd hcls hrow => congrArg _ (State.cacheUnknown_unknownCommand hc hcmd hcls hrow),
      fun r v u hcmd hcls hrow hv hfull => congrArg _ (State.cacheUnknown_full hc hnew hcmd hcls hrow hv hfull)⟩
  · rw [show exec .cacheCmd s = .next (s.cacheKnown k) from execCacheCmd_known hc (State.lookup_of_registryOk hr he hd)]
    exact ⟨fun hcc => congrArg _ (State.cacheKnown_notCacheable hc he hcmd hcc),
      fun hcc hrow => congrArg _ (State.cacheKnown_unknownCommand hc he hcmd hcc hrow)⟩

/-- Settles O36, by the two cases of `clearCmd`. -/
theorem cacheCmdCancel : Obligations.CacheCmdCancel := by
  intro s c k e hc hr he hd hcmd
  have hdev := State.dev_of he
  have hout := State.outstanding_eq_pending hr he
  rw [show exec .cacheCmd s = .next (s.cacheKnown k) from execCacheCmd_known hc (State.lookup_of_registryOk hr he hd)]
  refine ⟨fun hpend => ?_, fun hpend => ⟨_, rfl, ?_⟩⟩
  · have hidle : s.clearCmd k = s := State.clearCmd_idle (by rw [hdev, hout, hpend])
    exact congrArg _ (State.cacheKnown_cancel hc hcmd hidle hc he)
  · exact congrArg _ (State.cacheKnown_cancel hc hcmd (State.clearCmd_out hdev (hout.trans hpend)) hc
      (List.getElem?_set_self (List.getElem?_eq_some_iff.1 he).1))

/-- Settles O37: the entry is created as not seen, so the command that is stored on it is pre-cached. -/
theorem cacheCmdCreates : Obligations.CacheCmdCreates := by
  intro s c r v u hc hids hcmd hcls hrow hroom hv
  have hnew := State.lookup_none.2 hids
  have hcfg : u.cfg = s.cfg := by
    obtain ⟨q, rfl⟩ := hv.env_only
    rfl
  refine ⟨_, _, commandFrame_stored _ _ _ _ _ hv.length, rfl, (execCacheCmd_unknown hc hnew).trans (congrArg _ ?_)⟩
  refine State.cacheUnknown_creates hc hnew hcmd hcls hrow hv hroom ?_
  rw [State.cachedDev, hcfg, ← commandFrame_length s.cfg.cryptKey s.cfg.mfrDefault c.args.prod c.args.devid u.nonce hv.length]
  simp [attachedDev, newDev, hcls]

/-- Settles O38: the counters follow the two cases of an overwrite and a new command. -/
theorem cacheCmdStores : Obligations.CacheCmdStores := by
  intro s c k e r v u hc hr he hd hcmd hcc hrow hv
  have hk := State.lookup_of_registryOk hr he hd
  refine ⟨_, _, commandFrame_stored _ _ _ _ _ hv.length, rfl, (execCacheCmd_known hc hk).trans (congrArg _ ?_)⟩
  rw [State.cacheKnown_stores hc he hcmd hcc hrow hv,
    ← commandFrame_length s.cfg.cryptKey e.mfr e.prod c.args.devid u.nonce hv.length]
  obtain ⟨q, rfl⟩ := hv.env_only
  rw [State.cacheRecord_eq (by exact hc) (by exact he)]
  rw [countNewActive, countNewPrecached]
  rfl

end Sys2Proof.Machine
end

section
/-! SUPPORT. Post-processing (44_retry_sequencer.md R132 to R136): the acknowledgement of an entry's command as one update of the
entry and the counters, then the auto-telemetry command. -/

namespace Sys2Proof.Machine

/-! ## ACK_TABLE (44_retry_sequencer.md R134) -/

theorem acknowledges_of_unique {cfg : Config} {cmd : Byte} {ps : List (BitVec 7)} (hps : (cmd, ps) ∈ cfg.ackTable)
    (hunique : ∀ qs, (cmd, qs) ∈ cfg.ackTable → qs = ps) (pid : BitVec 7) : acknowledges cfg cmd pid = true ↔ pid ∈ ps := by
  have hfind : cfg.ackTable.find? (fun row => row.1 == cmd) = some (cmd, ps) := by
    refine find?_of_unique hps (beq_self_eq_true cmd) fun row hrow hid => ?_
    obtain ⟨id, qs⟩ := row
    obtain rfl : id = cmd := eq_of_beq hid
    rw [hunique qs hrow]
  rw [acknowledges, hfind]
  exact List.contains_iff_mem

theorem acknowledges_of_unknown {cfg : Config} {cmd : Byte} (hnone : ∀ row ∈ cfg.ackTable, row.1 ≠ cmd) (pid : BitVec 7) :
    acknowledges cfg cmd pid = false := by
  have hfind : cfg.ackTable.find? (fun row => row.1 == cmd) = none :=
    List.find?_eq_none.2 fun row hrow hid => hnone row hrow (eq_of_beq hid)
  rw [acknowledges, hfind]

/-! ## The acknowledgement -/

/-- The entry `e` at index `k` becomes `e'`, and a command of `e` that was acknowledged leaves its counter. -/
def State.acknowledge (s : State) (k : Nat) (e e' : Dev) (acked : Bool) : State :=
  { s with devs := s.devs.set k e',
           cntActive := if acked && e.cc.active then s.cntActive - 1 else s.cntActive,
           cntPrecached := if acked && !e.cc.active then s.cntPrecached - 1 else s.cntPrecached }

/-- The entry with its command cleared if it was acknowledged. -/
def Dev.clearedIf (e : Dev) (acked : Bool) : Dev := if acked then clearedDev e else e

/-- The entry is a valve, and a record of the frame acknowledges its outstanding command (44_retry_sequencer.md R134). -/
def valveAcked (cfg : Config) (e : Dev) (recs : List DecRec) : Bool :=
  e.ext == .valve && e.cc.pending && recs.any (fun r => acknowledges cfg e.cc.cmd r.pid)

/-- A thermostat after the acknowledgement (44_retry_sequencer.md R133): a frame with another record than the wakeup record sets the
telemetry time and acknowledges the command, of which a set-mode command gives the mode. -/
def Dev.thermostatAcked (cfg : Config) (e : Dev) (other : Bool) (ts : BitVec 64) : Dev :=
  { e with
    th := { mode := if (other && e.cc.pending) && e.cc.cmd == cfg.cmdThermMode then e.cc.data else e.th.mode
            modeKnown := ((other && e.cc.pending) && e.cc.cmd == cfg.cmdThermMode) || e.th.modeKnown
            lastTel := if other then ts else e.th.lastTel }
    cc := (e.clearedIf (other && e.cc.pending)).cc }

/-- The post-processing registers before any acknowledgement (44_retry_sequencer.md R132). -/
def wakeReport (cfg : Config) (recs : List DecRec) : PostReport :=
  { PostReport.reset with hasWake := hasPid recs cfg.paramWakeup }

section
variable {s : State} {c : Ctx} {k : Nat} {e : Dev}

theorem State.acknowledge_get (he : s.devs[k]? = some e) (f e' : Dev) (acked : Bool) :
    (s.acknowledge k f e' acked).devs[k]? = some e' :=
  List.getElem?_set_self (List.getElem?_eq_some_iff.1 he).1

theorem State.acknowledge_nothing (he : s.devs[k]? = some e) : s.acknowledge k e e false = s := by
  unfold State.acknowledge
  rw [State.setDev_self he]
  rfl

theorem State.setCtx_acknowledge (s : State) (b : Ctx) (k : Nat) (f e' : Dev) (acked : Bool) :
    (s.setCtx b).acknowledge k f e' acked = (s.acknowledge k f e' acked).setCtx b := rfl

/-- `valveAck` as one update (44_retry_sequencer.md R134). -/
theorem State.valveAck_eq (hc : s.ctxs[s.cur]? = some c) (he : s.devs[k]? = some e) (hext : e.ext = .valve)
    (hcc : e.hasCc = true) (recs : List DecRec) :
    s.valveAck k recs
      = (s.acknowledge k e (e.clearedIf (valveAcked s.cfg e recs)) (valveAcked s.cfg e recs)).setCtx
          { c with post := { c.post with acked := valveAcked s.cfg e recs || c.post.acked } } := by
  have hdev := State.dev_of he
  have hctx := State.ctx_of hc
  have hout : (e.hasCc && e.cc.pending && recs.any (fun r => acknowledges s.cfg e.cc.cmd r.pid)) = valveAcked s.cfg e recs := by
    rw [hcc, valveAcked, hext]
    rfl
  unfold State.valveAck
  simp only [hdev, hout]
  cases hack : valveAcked s.cfg e recs with
  | false =>
    have hsame : s.setCtx c = s := hctx ▸ State.setCtx_self (State.cur_lt hc)
    exact ((congrArg (State.setCtx · c) (State.acknowledge_nothing he)).trans hsame).symm
  | true =>
    have hpend : (e.hasCc && e.cc.pending) = true := by
      rw [← hout] at hack
      exact (Bool.and_eq_true_iff.1 hack).1
    have hclear : s.clearCmd k = s.acknowledge k e (clearedDev e) true := by
      rw [State.clearCmd_out hdev hpend, State.acknowledge]
      cases e.cc.active <;> rfl
    have hbank : (s.acknowledge k e (clearedDev e) true).ctx = c := hctx
    rw [if_pos rfl, hclear, State.setPost, hbank]
    rfl

theorem State.thermostatAck_acknowledge (hc : s.ctxs[s.cur]? = some c) (he : s.devs[k]? = some e) (hcc : e.hasCc = true)
    (other : Bool) (ts : BitVec 64) :
    s.thermostatAck k other ts
      = (s.acknowledge k e (e.thermostatAcked s.cfg other ts) (other && e.cc.pending)).setCtx
          { c with post := if other && e.cc.pending then acknowledgedPost s.cfg e c.post else c.post } := by
  rw [State.thermostatAck_eq he (State.cur_lt hc) other ts hcc, State.ctx_of hc]
  rfl

/-! ## `postProcess` by the extension of the entry (44_retry_sequencer.md R132) -/

/-- An entry that is no thermostat: only a valve acknowledges. -/
theorem State.postProcess_valveAcked (hc : s.ctxs[s.cur]? = some c) (he : s.devs[k]? = some e) (hext : e.ext ≠ .thermostat)
    (hcc : e.ext = .none ∨ e.hasCc = true) (recs : List DecRec) (ts : BitVec 64) :
    s.postProcess k recs ts
      = (s.acknowledge k e (e.clearedIf (valveAcked s.cfg e recs)) (valveAcked s.cfg e recs)).setCtx
          { c with dev := reportOf (e.clearedIf (valveAcked s.cfg e recs)),
                   post := { wakeReport s.cfg recs with acked := valveAcked s.cfg e recs } } := by
  have hcur := State.cur_lt hc
  rw [State.postProcess, State.dev_of he]
  simp only [State.setPost, State.ctx_of hc]
  cases hkind : e.ext with
  | thermostat => exact absurd hkind hext
  | none =>
    have hack : valveAcked s.cfg e recs = false := by
      rw [valveAcked, hkind]
      rfl
    simp only [hack]
    rw [State.setCtx_devReport hcur he, show e.clearedIf false = e from rfl, State.acknowledge_nothing he]
    rfl
  | valve =>
    have hcc' : e.hasCc = true := hcc.resolve_left (by simp [hkind])
    simp only
    rw [State.valveAck_eq (State.setCtx_get hcur _) he hkind hcc',
      State.setCtx_devReport (by exact State.cur_lt (State.setCtx_get hcur _)) (State.acknowledge_get (by exact he) _ _ _),
      State.setCtx_acknowledge, State.setCtx_setCtx]
    simp only [State.setCtx_cfg, PostReport.reset, Bool.or_false]
    rfl

/-- A thermostat: the acknowledgement, then auto-telemetry with what it answers, then the report. -/
theorem State.postProcess_thermostat (hc : s.ctxs[s.cur]? = some c) (he : s.devs[k]? = some e) (hext : e.ext = .thermostat)
    (hcc : e.hasCc = true) {recs : List DecRec} {ts : BitVec 64} {acked : Bool} {e1 e2 : Dev} {post : PostReport} {t : State}
    {d : Ctx} (hacked : (hasOther s.cfg recs && e.cc.pending) = acked)
    (he1 : e.thermostatAcked s.cfg (hasOther s.cfg recs) ts = e1)
    (hpost : (if acked then acknowledgedPost s.cfg e (wakeReport s.cfg recs) else wakeReport s.cfg recs) = post)
    (hauto : ((s.acknowledge k e e1 acked).setCtx { c with post := post }).autoTelemetry k (hasPid recs s.cfg.paramWakeup) ts
      = t.setCtx d) (ht : t.cur < t.ctxs.length) (he2 : t.devs[k]? = some e2) :
    s.postProcess k recs ts = t.setCtx { d with dev := reportOf e2 } := by
  have hcur := State.cur_lt hc
  rw [State.postProcess, State.dev_of he, hext]
  simp only [State.setPost, State.ctx_of hc]
  rw [State.thermostatAck_acknowledge (State.setCtx_get hcur _) he hcc, State.setCtx_acknowledge, State.setCtx_setCtx]
  subst hacked he1 hpost
  exact (congrArg (State.devReport · k) hauto).trans (State.setCtx_devReport ht he2 _)

end

/-! ## Auto-telemetry (44_retry_sequencer.md R135) -/

section
variable {s : State} {c : Ctx} {k : Nat} {e : Dev}

/-- The period has elapsed exactly if the last telemetry and the period lie in the past. -/
theorem autoDue_eq (cfg : Config) (wake : Bool) (ts : BitVec 64) (hcc : e.hasCc = true) :
    autoDue cfg e wake ts = (wake && !e.cc.pending && e.th.modeKnown && !(e.th.mode == cfg.modeGateway)
      && decide (e.th.lastTel.toNat + cfg.telemetryPeriod.toNat ≤ ts.toNat)) := by
  have helapsed : (decide (e.th.lastTel.toNat ≤ ts.toNat) && decide (cfg.telemetryPeriod.toNat ≤ ts.toNat - e.th.lastTel.toNat))
      = decide (e.th.lastTel.toNat + cfg.telemetryPeriod.toNat ≤ ts.toNat) := by
    rw [← Bool.decide_and, decide_eq_decide]
    omega
  rw [autoDue, hcc, Bool.and_true, Bool.and_assoc, helapsed]

/-- Auto-telemetry replaces no command that is outstanding. -/
theorem pending_of_autoDue {cfg : Config} {wake : Bool} {ts : BitVec 64} (h : autoDue cfg e wake ts = true) :
    e.cc.pending = false := by
  simp only [autoDue, Bool.and_eq_true, Bool.not_eq_true'] at h
  obtain ⟨⟨⟨⟨⟨-, hpend⟩, -⟩, -⟩, -⟩, -⟩ := h
  exact hpend

theorem State.autoTelemetry_none {wake : Bool} {ts : BitVec 64} (he : s.devs[k]? = some e)
    (hnone : autoDue s.cfg e wake ts = false ∨ cmdLookup s.cfg s.cfg.cmdThermMode = none) : s.autoTelemetry k wake ts = s := by
  unfold State.autoTelemetry
  simp only [State.dev_of he]
  cases hdue : autoDue s.cfg e wake ts with
  | false => rfl
  | true =>
    have hrow := hnone.resolve_left (by simp [hdue])
    rw [if_pos rfl, State.encRecord_unknown hrow]

/-- The entry with the set-mode command stored, its frame built under the nonce `pip` (44_retry_sequencer.md R135). -/
def Dev.autoCached (cfg : Config) (e : Dev) (rec : List Byte) (pip : BitVec 16) : Dev :=
  attachedDev e cfg.cmdThermMode e.th.mode cfg.autoRetries (frameBytes cfg.cryptKey e.mfr e.prod e.devid rec pip)

theorem State.autoTelemetry_caches {wake : Bool} {ts : BitVec 64} {r : CmdRow} {v : List Byte} {u : State}
    (hc : s.ctxs[s.cur]? = some c) (he : s.devs[k]? = some e) (hdue : autoDue s.cfg e wake ts = true)
    (hrow : cmdLookup s.cfg s.cfg.cmdThermMode = some r) (hv : ValueBytes s r e.th.mode v u) :
    s.autoTelemetry k wake ts =
      ({ u.afterNonce with
          devs := s.devs.set k (e.autoCached s.cfg (commandBytes r v) u.nonce),
          cntActive := s.cntActive + (if e.seen then 1 else 0),
          cntPrecached := s.cntPrecached + (if e.seen then 0 else 1) } : State).setCtx
        { c with post := { c.post with autoCached := true } } := by
  have hpend := pending_of_autoDue hdue
  obtain rfl := State.ctx_of hc
  unfold State.autoTelemetry
  simp only [State.dev_of he, hdue, if_true, State.encRecord_of hrow hv]
  rw [← commandBytes_eq hv.length]
  obtain ⟨q, rfl⟩ := hv.env_only
  rw [State.attachCmd_eq (e := e) (State.dev_of (by exact he)), hpend, add_ite, add_ite, add_zero, add_zero]
  rfl

/-- A draw of value bytes depends on the environment alone. -/
theorem ValueBytes.transport {t u : State} {r : CmdRow} {d : BitVec 32} {v : List Byte} (h : ValueBytes s r d v u)
    (henv : t.env = s.env) : ValueBytes t r d v { t with env := u.env } := by
  rcases h with ⟨henc, rfl⟩ | ⟨henc, rfl, rfl⟩
  · exact .inl ⟨henc, by rw [← henv]⟩
  · refine .inr ⟨henc, ?_, ?_⟩
    · rw [State.valueBytes, State.valueBytes, henv]
    · rw [State.afterValueBytes, State.afterValueBytes, henv]

/-- The post-processing registers of a thermostat after the acknowledgement (44_retry_sequencer.md R133): the effect of a command
that the device never echoes is assumed. -/
theorem thermostatReport_eq (cfg : Config) (e : Dev) (recs : List DecRec) (acked : Bool) :
    (if acked then acknowledgedPost cfg e (wakeReport cfg recs) else wakeReport cfg recs)
      = { hasWake := hasPid recs cfg.paramWakeup, acked := acked, assumed := acked && cfg.noEchoCmds.contains e.cc.cmd,
          assumedCmd := if acked && cfg.noEchoCmds.contains e.cc.cmd then e.cc.cmd else 0
          assumedData := if acked && cfg.noEchoCmds.contains e.cc.cmd then e.cc.data else 0
          autoCached := false } := by
  cases acked with
  | false => rfl
  | true =>
    rw [if_pos rfl, Bool.true_and, acknowledgedPost]
    cases cfg.noEchoCmds.contains e.cc.cmd <;> rfl

section
variable {recs : List DecRec} {ts : BitVec 64} {acked : Bool} {e1 : Dev} {post : PostReport}

/-- A thermostat for which no command is cached. -/
theorem State.postProcess_thermostat_none (hc : s.ctxs[s.cur]? = some c) (he : s.devs[k]? = some e) (hext : e.ext = .thermostat)
    (hcc : e.hasCc = true) (hacked : (hasOther s.cfg recs && e.cc.pending) = acked)
    (he1 : e.thermostatAcked s.cfg (hasOther s.cfg recs) ts = e1)
    (hpost : (if acked then acknowledgedPost s.cfg e (wakeReport s.cfg recs) else wakeReport s.cfg recs) = post)
    (hnone : autoDue s.cfg e1 (hasPid recs s.cfg.paramWakeup) ts = false ∨ cmdLookup s.cfg s.cfg.cmdThermMode = none) :
    s.postProcess k recs ts = (s.acknowledge k e e1 acked).setCtx { c with dev := reportOf e1, post := post } := by
  have hget : (s.acknowledge k e e1 acked).devs[k]? = some e1 := State.acknowledge_get he _ _ _
  exact State.postProcess_thermostat hc he hext hcc hacked he1 hpost (State.autoTelemetry_none (by exact hget) hnone)
    (State.cur_lt hc) hget

/-- A thermostat for which the set-mode command is cached. -/
theorem State.postProcess_thermostat_caches {r : CmdRow} {v : List Byte} {u : State} {e2 : Dev}
    (hc : s.ctxs[s.cur]? = some c) (he : s.devs[k]? = some e) (hext : e.ext = .thermostat)
    (hcc : e.hasCc = true) (hacked : (hasOther s.cfg recs && e.cc.pending) = acked)
    (he1 : e.thermostatAcked s.cfg (hasOther s.cfg recs) ts = e1)
    (hpost : (if acked then acknowledgedPost s.cfg e (wakeReport s.cfg recs) else wakeReport s.cfg recs) = post)
    (hdue : autoDue s.cfg e1 (hasPid recs s.cfg.paramWakeup) ts = true) (hrow : cmdLookup s.cfg s.cfg.cmdThermMode = some r)
    (hv : ValueBytes s r e1.th.mode v u) (he2 : e1.autoCached s.cfg (commandBytes r v) u.nonce = e2) :
    s.postProcess k recs ts =
      ({ u.afterNonce with
          devs := s.devs.set k e2,
          cntActive := (if acked && e.cc.active then s.cntActive - 1 else s.cntActive) + (if e1.seen then 1 else 0),
          cntPrecached := (if acked && !e.cc.active then s.cntPrecached - 1 else s.cntPrecached)
            + (if e1.seen then 0 else 1) } : State).setCtx
        { c with dev := reportOf e2, post := { post with autoCached := true } } := by
  have hget : (s.acknowledge k e e1 acked).devs[k]? = some e1 := State.acknowledge_get he _ _ _
  have hcur := State.cur_lt hc
  have hbank := State.setCtx_get (s := s.acknowledge k e e1 acked) hcur { c with post := post }
  have hauto := State.autoTelemetry_caches (s := (s.acknowledge k e e1 acked).setCtx { c with post := post }) hbank hget hdue
    hrow (hv.transport rfl)
  subst he2
  rw [State.postProcess_thermostat hc he hext hcc hacked he1 hpost hauto (State.cur_lt hbank)
    (List.getElem?_set_self (List.getElem?_eq_some_iff.1 hget).1)]
  obtain ⟨q, rfl⟩ := hv.env_only
  simp only [State.setCtx, State.acknowledge, State.afterNonce_ctxs, State.afterNonce_cur, List.set_set]
  rfl

end

/-! ## The operation POST_PROCESS (44_retry_sequencer.md R136) -/

theorem execPostProcess_badOperand (hc : s.ctxs[s.cur]? = some c) (hvalid : c.dec.valid = false) :
    execPostProcess s = .next (s.setCtx (c.done .badOperand)) := by
  have hctx := State.ctx_of hc
  rw [execPostProcess, hctx, if_neg (by simp [hvalid]), State.raise_eq hctx]

theorem execPostProcess_notFound (hc : s.ctxs[s.cur]? = some c) (hvalid : c.dec.valid = true)
    (hnew : s.lookup c.dec.devid = none) :
    execPostProcess s = .next (s.setCtx (Ctx.done { c with dev := DevReport.reset } .notFound)) := by
  rw [execPostProcess, State.ctx_of hc, if_pos hvalid, hnew]
  exact congrArg _ (State.devReportNone_raise hc _)

theorem execPostProcess_known (hc : s.ctxs[s.cur]? = some c) (hvalid : c.dec.valid = true)
    (hk : s.lookup c.dec.devid = some k) {t : State} {d : Ctx}
    (hpost : s.postProcess k c.dec.used c.args.time = t.setCtx d) (ht : t.cur < t.ctxs.length) :
    execPostProcess s = .next (t.setCtx (d.done .ok)) := by
  rw [execPostProcess, State.ctx_of hc, if_pos hvalid, hk]
  simp only [hpost]
  rw [State.setCtx_finish ht]

end

/-- Settles O41, by the checks of POST_PROCESS and the two extensions without a thermostat. -/
theorem postProcessPlainAndValve : Obligations.PostProcessPlainAndValve := by
  refine ⟨fun cfg cmd pid => ⟨fun ps hps hunique => acknowledges_of_unique hps hunique pid,
    fun hnone => acknowledges_of_unknown hnone pid⟩, fun s c hc hr => ⟨execPostProcess_badOperand hc,
    fun hvalid hids => execPostProcess_notFound hc hvalid (State.lookup_none.2 hids), fun k e hvalid he hd => ?_,
    fun k e acked hvalid he hd hext hacked => ?_⟩⟩
  · have hcur := ((State.Works.refl s).postProcess k c.dec.used c.args.time).cur_lt (State.cur_lt hc)
    exact ⟨_, _, rfl, State.ctx_get hcur, execPostProcess_known hc hvalid (State.lookup_of_registryOk hr he hd)
      (State.setCtx_self hcur).symm hcur⟩
  · obtain ⟨-, hcc, -⟩ := Dev.ok_iff.1 (State.dev_ok hr he)
    subst hacked
    exact ⟨_, rfl, execPostProcess_known hc hvalid (State.lookup_of_registryOk hr he hd)
      (State.postProcess_valveAcked hc he hext hcc _ _) (State.cur_lt hc)⟩

/-- Settles O42: the acknowledgement as one update, then auto-telemetry by whether it is due and the command has a row. -/
theorem postProcessThermostat : Obligations.PostProcessThermostat := by
  intro s c k e e1 wake other acked due echoless th hc hr hvalid he hd hext hwake hother hacked hecho hth he1 hdue
  have hk := State.lookup_of_registryOk hr he hd
  obtain ⟨-, hextCc, -⟩ := Dev.ok_iff.1 (State.dev_ok hr he)
  have hcc : e.hasCc = true := hextCc.resolve_left (by simp [hext])
  have hack : (hasOther s.cfg c.dec.used && e.cc.pending) = acked := by
    rw [hacked, hother]
    rfl
  have hentry : e.thermostatAcked s.cfg (hasOther s.cfg c.dec.used) c.args.time = e1 := by
    rw [he1, hth, Dev.thermostatAcked, hack, hother]
    cases acked <;> rfl
  have hdueEq : autoDue s.cfg e1 (hasPid c.dec.used s.cfg.paramWakeup) c.args.time = due := by
    rw [autoDue_eq _ _ _ (by rw [he1]; exact hcc), hdue, hwake, he1]
    rfl
  have hpost := thermostatReport_eq s.cfg e c.dec.used acked
  rw [← hecho, show hasPid c.dec.used s.cfg.paramWakeup = wake from hwake.symm] at hpost
  refine ⟨fun hnone => ?_, fun r v u hdueTrue hrow hv => ?_⟩
  · rw [← hdueEq] at hnone
    exact execPostProcess_known hc hvalid hk (State.postProcess_thermostat_none hc he hext hcc hack hentry hpost hnone)
      (State.cur_lt hc)
  · have hmode : e1.th.mode = th.mode := by rw [he1]
    have hseen : e1.seen = e.seen := by rw [he1]
    have hpend : e1.cc.pending = false := pending_of_autoDue (hdueEq.trans hdueTrue)
    refine ⟨_, _, commandFrame_stored _ _ _ _ _ hv.length, rfl, ?_⟩
    rw [← commandFrame_length s.cfg.cryptKey e.mfr e.prod e.devid u.nonce hv.length, ← hseen]
    refine execPostProcess_known hc hvalid hk (State.postProcess_thermostat_caches hc he hext hcc hack hentry hpost
      (hdueEq.trans hdueTrue) hrow (hmode ▸ hv) ?_) ?_
    · rw [Dev.autoCached, attachedDev, hpend, hmode, he1]
      rfl
    · exact State.cur_lt (hv.bank hc)

end Sys2Proof.Machine
end

section
/-! SUPPORT. RX_POLL's start step, and the DRAINING and INJECT steps with the gate that they take (44_retry_sequencer.md R137, R138,
R141; 45_radio_gate.md R146). -/

namespace Sys2Proof.Machine

section
variable {s : State} {c : Ctx}

/-! ## The end of a step -/

theorem State.setRxs_eq (hc : s.ctxs[s.cur]? = some c) (p : PollState) :
    s.setRxs p = s.setCtx { c with poll := { c.poll with rxs := p } } := by
  rw [State.setRxs, State.ctx_of hc]

theorem State.setCtx_endPoll (hcur : s.cur < s.ctxs.length) (b : Ctx) (e : Code) :
    (s.setCtx b).endPoll e = s.setCtx (Ctx.done { b with poll := { b.poll with rxs := .off } } e) := by
  rw [State.endPoll_eq (State.setCtx_get (s := s) hcur b), State.setCtx_setCtx]

/-! ## The start step -/

theorem State.holdsGate_eq_decide (s : State) :
    s.holdsGate = decide (s.gate.held = true ∧ s.gate.owner = BitVec.ofNat 8 s.cur) := by
  rw [Bool.eq_iff_iff, State.holdsGate_iff, decide_eq_true_iff]

/-- Settles O43: the start step is one write of the bank. -/
theorem rxPollStart : Obligations.RxPollStart := by
  intro s c hc
  rw [← State.holdsGate_eq_decide, ← State.ctx_of hc]
  rfl

/-! ## Taking the gate -/

/-- The gate of a context that takes it (45_radio_gate.md R146). -/
def State.ownGate (s : State) : Gate := { init := true, held := true, owner := BitVec.ofNat 8 s.cur }

theorem State.holdsGate_of_free (hfree : s.gate.held = false) : s.holdsGate = false :=
  State.holdsGate_eq_false.2 fun ⟨hheld, _⟩ => by simp [hfree] at hheld

/-- A free gate of a transceiver that is up is taken at once. -/
theorem State.gateTake_up (hfree : s.gate.held = false) (hinit : s.gate.init = true) :
    s.gateTake = (.taken, { s with gate := s.ownGate }) := by
  rw [State.gateTake, State.holdsGate_of_free hfree, hinit]
  rfl

/-- Otherwise the transceiver is started first. -/
theorem State.gateTake_started (hfree : s.gate.held = false) (hinit : s.gate.init = false) (hanswer : s.initAnswer = true) :
    s.gateTake = (.taken, { s.afterInit with gate := s.ownGate,
                                             events := s.events ++ [.initCall true, .setMode s.cfg.defaultMode] }) := by
  have hevents : s.events ++ [.initCall true, .setMode s.cfg.defaultMode]
      = (s.afterInit.logEvent (.setMode s.cfg.defaultMode)).events := by simp [hanswer]
  rw [State.gateTake, State.holdsGate_of_free hfree, hinit, hanswer, hevents]
  rfl

/-- A start that fails leaves the gate free. -/
theorem State.gateTake_failed (hfree : s.gate.held = false) (hinit : s.gate.init = false) (hanswer : s.initAnswer = false) :
    s.gateTake = (.fail, { s.afterInit with events := s.events ++ [.initCall false] }) := by
  rw [← hanswer, State.gateTake, State.holdsGate_of_free hfree, hinit, if_neg (by simp), if_neg (by simp),
    if_neg (by simp [hanswer])]
  rfl

theorem State.otherHolds_of_holdsGate (hown : s.holdsGate = true) : s.otherHolds = false := by
  rw [← Bool.not_eq_true, State.otherHolds_iff]
  exact fun ⟨_, hne⟩ => hne (State.holdsGate_iff.1 hown).2

/-! ## The DRAINING step -/

theorem State.proceed_draining (hc : s.ctxs[s.cur]? = some c) (hrxs : c.poll.rxs = .draining) (hother : s.otherHolds = false) :
    s.proceed = s.drainingStep := by
  rw [State.proceed, State.ctx_of hc, hrxs]
  exact if_neg (by simp [hother])

theorem State.drainingStep_failed {u : State} (htake : s.gateTake = (.fail, u)) :
    s.drainingStep = u.endPoll .lockUnavailable := by
  rw [State.drainingStep, htake]

/-- A drain keeps the issuing bank. -/
theorem State.drain_bank (hc : s.ctxs[s.cur]? = some c) : s.drain.ctxs[s.drain.cur]? = some c := by
  obtain ⟨r, es, q, hdrain, -⟩ := s.drain_frame
  rw [hdrain]
  exact hc

/-- The holder drains, and keeps the gate. -/
theorem State.drainingStep_already (hc : s.ctxs[s.cur]? = some c) (hown : s.holdsGate = true) :
    s.drainingStep = s.drain.setCtx { c with poll := { c.poll with rxs := .decoding } } := by
  rw [State.drainingStep, State.gateTake_of_holdsGate hown]
  exact State.setRxs_eq (State.drain_bank hc) _

/-- A context that took the gate puts it back. -/
theorem State.drainingStep_taken {u : State} (hu : u.ctxs[u.cur]? = some c) (htake : s.gateTake = (.taken, u)) :
    s.drainingStep = ({ u.drain with gate := { u.gate with held := false } } : State).setCtx
      { c with poll := { c.poll with rxs := .decoding } } := by
  rw [State.drainingStep, htake, ← u.drain_gate]
  exact State.setRxs_eq (s := u.drain.freeGate) (State.drain_bank hu) _

/-! ## The INJECT step -/

theorem State.proceed_inject (hc : s.ctxs[s.cur]? = some c) (hrxs : c.poll.rxs = .inject) (hother : s.otherHolds = false) :
    s.proceed = s.injectStep := by
  rw [State.proceed, State.ctx_of hc, hrxs]
  exact if_neg (by simp [hother])

theorem State.injectStep_failed {u : State} (htake : s.gateTake = (.fail, u)) : s.injectStep = u.endPoll .lockUnavailable := by
  rw [State.injectStep, htake]

/-- One send, then post-processing of the frame that woke the device (44_retry_sequencer.md R141). -/
theorem State.injectStep_sends {t : Taken} {u v w : State} {b : Bool} (htake : s.gateTake = (t, u)) (ht : t ≠ .fail)
    (hu : u.ctxs[u.cur]? = some c) (hsend : u.sendCached c.poll.dev.toNat = (b, v)) (hput : v.putBack t = w) :
    s.injectStep = ((w.setCtx { c with rSent := b }).postProcess c.poll.dev.toNat c.dec.used c.rTs).endPoll .ok := by
  have hv : v.ctxs[v.cur]? = some c := by
    have hbank := State.sendCached_bank hu c.poll.dev.toNat
    rwa [hsend] at hbank
  have hcur : v.cur < v.ctxs.length := State.cur_lt hv
  have hbank : ((v.setCtx { c with rSent := b }).putBack t) = w.setCtx { c with rSent := b } := by
    subst hput
    unfold State.putBack
    split_ifs <;> rfl
  have hctx : (w.setCtx { c with rSent := b }).ctx = { c with rSent := b } := by
    subst hput
    unfold State.putBack
    split_ifs <;> exact State.setCtx_ctx_of_lt hcur _
  rw [State.injectStep, htake]
  cases t with
  | fail => exact absurd rfl ht
  | already | taken => simp only [State.ctx_of hu, hsend, State.ctx_of hv, hbank, hctx]

/-- A context that took the gate puts it back after the send. -/
theorem State.injectStep_taken {u : State} (hu : u.ctxs[u.cur]? = some c) (htake : s.gateTake = (.taken, u)) :
    s.injectStep = ((({ (u.sendCached c.poll.dev.toNat).2 with gate := { u.gate with held := false } } : State).setCtx
      { c with rSent := (u.sendCached c.poll.dev.toNat).1 }).postProcess c.poll.dev.toNat c.dec.used c.rTs).endPoll .ok := by
  rw [← u.sendCached_gate c.poll.dev.toNat]
  exact State.injectStep_sends htake nofun hu rfl rfl

end

/-! ## The statements -/

/-- Settles O45, by what `gateTake` answers. -/
theorem drainingStep : Obligations.DrainingStep := by
  intro s c hc hrxs
  have hstep := State.proceed_draining hc hrxs
  refine ⟨fun hheld howner => ?_, fun hfree hinit => ?_, fun hfree hinit hanswer => ?_, fun hfree hinit hanswer => ?_⟩
  · have hown := State.holdsGate_iff.2 ⟨hheld, howner⟩
    exact ⟨_, rfl, s.drain_gate, (hstep (State.otherHolds_of_holdsGate hown)).trans (State.drainingStep_already hc hown)⟩
  all_goals have hdraining := hstep (State.otherHolds_of_free hfree)
  · exact ⟨s.ownGate, _, rfl, rfl, hdraining.trans (State.drainingStep_taken (by exact hc) (State.gateTake_up hfree hinit))⟩
  · exact ⟨s.ownGate, _, rfl, rfl, hdraining.trans
      (State.drainingStep_taken (by exact hc) (State.gateTake_started hfree hinit hanswer))⟩
  · have hfail := State.drainingStep_failed (State.gateTake_failed hfree hinit hanswer)
    exact hdraining.trans (hfail.trans (State.endPoll_eq (by exact hc) _))

/-- Settles O49, by what `gateTake` answers. -/
theorem injectStep : Obligations.InjectStep := by
  refine ⟨fun t d e hd => State.endPoll_eq hd e, fun s c hc hrxs => ?_⟩
  have hstep := State.proceed_inject hc hrxs
  refine ⟨fun hheld howner => ?_, fun hfree hinit => ?_, fun hfree hinit hanswer => ?_, fun hfree hinit hanswer => ?_⟩
  · have hown := State.holdsGate_iff.2 ⟨hheld, howner⟩
    exact (hstep (State.otherHolds_of_holdsGate hown)).trans
      (State.injectStep_sends (State.gateTake_of_holdsGate hown) nofun hc rfl rfl)
  all_goals have hinject := hstep (State.otherHolds_of_free hfree)
  · exact ⟨s.ownGate, _, _, rfl, rfl, hinject.trans (State.injectStep_taken (by exact hc) (State.gateTake_up hfree hinit))⟩
  · exact ⟨s.ownGate, _, _, rfl, rfl, hinject.trans
      (State.injectStep_taken (by exact hc) (State.gateTake_started hfree hinit hanswer))⟩
  · have hfail := State.injectStep_failed (State.gateTake_failed hfree hinit hanswer)
    exact hinject.trans (hfail.trans (State.endPoll_eq (by exact hc) _))

end Sys2Proof.Machine
end

section
/-! SUPPORT. The DECODING step (44_retry_sequencer.md R139, R140): an empty ring buffer, a frame that is dropped, and a frame of a
known and of a new device. -/

namespace Sys2Proof.Machine

/-! ## The slot that is decoded -/

/-- The bank after a slot was taken: RX_BUF reads as the slot (43_ring_buffer.md R115). -/
def Ctx.received (c : Ctx) (e : Slot) : Ctx := { c with rxBuf := e.bytes, rxLen := e.len, rTs := e.ts }

/-- A slot in shape and the buffer that takes it are the same canonical memory. -/
theorem Ctx.takeSlot_eq {c : Ctx} {e : Slot} (hmem : c.memOk = true) (he : e.ok = true) : c.takeSlot e = c.received e := by
  obtain ⟨⟨-, -, hrx, -⟩, -⟩ := Ctx.memOk_iff.1 hmem
  obtain ⟨hwf, hread⟩ := takeSlot_spec hrx he
  obtain ⟨hlen, hbytes⟩ := Bool.and_eq_true_iff.1 he
  have hbuf := Memory.ext hwf (Memory.wf_mono (of_decide_eq_true hlen) hbytes) hread
  rw [Ctx.takeSlot, frameMax, hbuf, Ctx.received]

section
variable {s : State} {c : Ctx} {e : Slot} {r : Ring}

theorem State.proceed_decoding (hc : s.ctxs[s.cur]? = some c) (hrxs : c.poll.rxs = .decoding) : s.proceed = s.decodingStep := by
  rw [State.proceed, State.ctx_of hc, hrxs]

/-! ## An empty ring buffer -/

theorem State.decodingStep_empty (hunread : s.ring.unread = []) : s.decodingStep = s.decodeEmpty := by
  rw [State.decodingStep, Ring.pop_of_unread_nil hunread]

theorem State.decodeEmpty_noMessage (hc : s.ctxs[s.cur]? = some c)
    (hend : c.poll.zero = true ∨ c.poll.deadline.toNat ≤ s.now.toNat) :
    s.decodeEmpty = s.setCtx (Ctx.done { c with poll := { c.poll with rxs := .off } } .noMessage) := by
  rw [State.decodeEmpty, State.ctx_of hc]
  exact (if_pos hend).trans (State.endPoll_eq hc _)

/-- How long a poll sleeps: short while a command is outstanding (44_retry_sequencer.md R139). -/
def State.sleepTime (s : State) : Nat :=
  if 0 < s.cntActive.toNat + s.cntPrecached.toNat then s.cfg.sleepShort else s.cfg.sleepLong

theorem State.sleepTime_eq (s : State) :
    (if s.cntActive == 0 && s.cntPrecached == 0 then s.cfg.sleepLong else s.cfg.sleepShort) = s.sleepTime := by
  have hzero : (s.cntActive == 0 && s.cntPrecached == 0) = true ↔ ¬ 0 < s.cntActive.toNat + s.cntPrecached.toNat := by
    rw [Bool.and_eq_true, beq_iff_eq, beq_iff_eq]
    bv_omega
  unfold State.sleepTime
  by_cases hpos : 0 < s.cntActive.toNat + s.cntPrecached.toNat
  · rw [if_pos hpos, if_neg (by simpa [hpos] using hzero)]
  · rw [if_neg hpos, if_pos (hzero.2 hpos)]

theorem State.decodeEmpty_sleeps (hc : s.ctxs[s.cur]? = some c) (hzero : c.poll.zero = false)
    (hearly : s.now.toNat < c.poll.deadline.toNat) :
    s.decodeEmpty = s.setCtx { c with poll :=
      { c.poll with rxs := .idle, wake := BitVec.ofNat 64 (min (s.now.toNat + s.sleepTime) c.poll.deadline.toNat) } } := by
  have hgo : ¬(c.poll.zero = true ∨ c.poll.deadline.toNat ≤ s.now.toNat) := by
    rw [hzero]
    simpa using hearly
  rw [State.decodeEmpty, State.ctx_of hc, ← s.sleepTime_eq]
  exact if_neg hgo

/-! ## A frame that is popped -/

/-- A frame that fails decoding is dropped. -/
theorem State.decodingStep_dropped (hc : s.ctxs[s.cur]? = some c) (hmem : c.memOk = true) (he : e.ok = true)
    (hpop : s.ring.pop = some (e, r)) {d : DecodeResult} (hd : decodeFrame s.cfg.cryptKey e.bytes e.len.toNat = d)
    (hbad : ∀ f, d ≠ .ok f) : s.decodingStep = ({ s with ring := r } : State).setCtx ((c.received e).writeDecode d) := by
  have hbank : s.ctx.takeSlot e = c.received e := by rw [State.ctx_of hc, Ctx.takeSlot_eq hmem he]
  have hframe : decodeFrame s.cfg.cryptKey (c.received e).rxBuf (c.received e).rxLen.toNat = d := hd
  rw [State.decodingStep, hpop]
  simp only [hbank, hframe]
  cases d with
  | ok f => exact absurd rfl (hbad f)
  | frameLen | crcMismatch _ => rfl

/-- The bank after a frame that decodes (42_frame_decoder.md R107). -/
def Ctx.accepted (c : Ctx) (e : Slot) (f : DecodedFrame) : Ctx := (c.received e).writeDecode (.ok f)

/-- A frame that decodes goes on. -/
theorem State.decodingStep_valid (hc : s.ctxs[s.cur]? = some c) (hmem : c.memOk = true) (he : e.ok = true)
    (hpop : s.ring.pop = some (e, r)) {f : DecodedFrame} (hd : decodeFrame s.cfg.cryptKey e.bytes e.len.toNat = .ok f) :
    s.decodingStep = (({ s with ring := r } : State).setCtx (c.accepted e f)).decodeValid f e.ts := by
  have hbank : s.ctx.takeSlot e = c.received e := by rw [State.ctx_of hc, Ctx.takeSlot_eq hmem he]
  have hframe : decodeFrame s.cfg.cryptKey (c.received e).rxBuf (c.received e).rxLen.toNat = .ok f := hd
  rw [State.decodingStep, hpop]
  simp only [hbank, hframe]
  rfl

end

/-- PLAIN_BUF takes the plaintext copy of a decode (42_frame_decoder.md R107). -/
theorem plainBuf_stored {c : Ctx} (hmem : c.memOk = true) {p : List Byte} (hp : p.length ≤ frameMax) :
    Memory.Stored 67 c.plainBuf 0 p (Memory.writeRange c.plainBuf 0 p) := by
  obtain ⟨⟨-, -, -, hplain⟩, -⟩ := Ctx.memOk_iff.1 hmem
  exact Memory.stored_writeRange ((Nat.zero_add _).trans_le hp) hplain

/-- Settles O46, by the two ends of a poll without a frame, and the two failures of a decode. -/
theorem decodingEmptyOrBadFrame : Obligations.DecodingEmptyOrBadFrame := by
  intro s c hc hmem hring hrxs
  rw [State.proceed_decoding hc hrxs]
  refine ⟨fun hnil hend => ?_, fun hnil hzero hearly => ?_, fun e rest hcons hbad => ?_⟩
  · exact (State.decodingStep_empty hnil).trans (State.decodeEmpty_noMessage hc hend)
  · refine ⟨_, ?_, (State.decodingStep_empty hnil).trans (State.decodeEmpty_sleeps hc hzero hearly)⟩
    have hdeadline := c.poll.deadline.isLt
    rw [BitVec.toNat_ofNat, Nat.mod_eq_of_lt (by omega)]
    rfl
  · obtain ⟨r, hpop, hok, hunread, hslots, hhead⟩ := Ring.pop_spec hring hcons
    have he : e.ok = true := Ring.unread_ok hring (hcons ▸ List.mem_cons_self)
    have hshape := decodeFrame_inShape s.cfg.cryptKey e.bytes e.len.toNat
    cases hd : decodeFrame s.cfg.cryptKey e.bytes e.len.toNat with
    | ok f => exact absurd hd (hbad f)
    | frameLen =>
      exact ⟨r, e.bytes, c.plainBuf, State.decodingStep_dropped hc hmem he hpop hd nofun, hok, hunread, hslots, hhead,
        fun _ => rfl, fun _ => rfl, nofun⟩
    | crcMismatch p =>
      rw [hd] at hshape
      refine ⟨r, e.bytes, _, State.decodingStep_dropped hc hmem he hpop hd nofun, hok, hunread, hslots, hhead,
        fun _ => rfl, nofun, fun q hq => ?_⟩
      cases hq
      exact plainBuf_stored hmem hshape

/-! ## A frame that decodes (44_retry_sequencer.md R139, R140) -/

section
variable {s : State} {c : Ctx} {k : Nat} {dev : Dev}

/-- A counter that is 0 counts no command (10_state.md R27): the fast path of `injectWanted` skips only what has none outstanding. -/
theorem State.counted_of_outstanding (hcount : s.countersOk = true) (hk : s.devs[k]? = some dev)
    (hout : (dev.hasCc && dev.cc.pending) = true) : (s.cntActive == 0 && s.cntPrecached == 0) = false := by
  obtain ⟨hactive, hprecached⟩ := State.countersOk_iff.1 hcount
  have hmem := List.mem_of_getElem? hk
  rw [← Bool.not_eq_true, Bool.and_eq_true, beq_iff_eq, beq_iff_eq]
  rintro ⟨hzero, hzero'⟩
  rw [hzero] at hactive
  rw [hzero'] at hprecached
  have hnone := List.countP_eq_zero.1 hactive.symm dev hmem
  have hnone' := List.countP_eq_zero.1 hprecached.symm dev hmem
  rw [Dev.activeOut, hout] at hnone
  rw [Dev.precachedOut, hout] at hnone'
  simp_all

/-- With the fast path of the counters or without it, INJECT is wanted for what is outstanding (44_retry_sequencer.md R140). -/
theorem State.injectWanted_eq (hk : s.devs[k]? = some dev) (hout : (dev.hasCc && dev.cc.pending) = dev.cc.pending)
    (hfast : dev.cc.pending = true → (s.cntActive == 0 && s.cntPrecached == 0) = false) (recs : List DecRec) :
    s.injectWanted k recs = (dev.cc.pending && (!dev.wakeGated || hasPid recs s.cfg.paramWakeup)) := by
  rw [State.injectWanted, State.dev_of hk]
  cases hpend : dev.cc.pending with
  | false => simp only [Bool.and_false, Bool.false_and]
  | true =>
    rw [hpend, Bool.and_true] at hout
    rw [hfast hpend, hout]
    rfl

/-- A frame of the entry that `getOrCreate` gives: the entry is seen, and the poll goes on to INJECT, or post-processes the frame
and ends. -/
theorem State.decodeValid_of_entry {b : Ctx} {f : DecodedFrame} {ts : BitVec 64} {created : Bool} {w u : State} {ds : List Dev}
    (hg : s.getOrCreate f.devid f.mfr f.prod false true ts = some (k, created, w.setCtx b)) (hcur : w.cur < w.ctxs.length)
    (hk : w.devs[k]? = some dev) (hseen : w.devs.set k { dev with seen := true } = ds)
    (hu : u = ({ w with devs := ds } : State).setCtx { b with rCreated := created }) :
    s.decodeValid f ts =
      if u.injectWanted k f.recs then
        ({ w with devs := ds } : State).setCtx
          { b with rCreated := created, poll := { b.poll with rxs := .inject, dev := BitVec.ofNat 16 k } }
      else (u.postProcess k f.recs ts).endPoll .ok := by
  have hmark : (w.setCtx b).markSeen k = ({ w with devs := ds } : State).setCtx b := by
    rw [State.markSeen, State.dev_of (s := w.setCtx b) hk, ← hseen]
    rfl
  have hbank : (({ w with devs := ds } : State).setCtx b).ctx = b := State.setCtx_ctx_of_lt hcur b
  have hctx : u.ctx = { b with rCreated := created } := by
    rw [hu]
    exact State.setCtx_ctx_of_lt hcur _
  unfold State.decodeValid
  simp only [hg, hmark, hbank, State.setCtx_setCtx, ← hu, hctx]
  rw [hu, State.setCtx_setCtx]

/-- The DECODING step on a frame that decodes. -/
theorem State.proceed_valid {e : Slot} {rest : List Slot} {f : DecodedFrame} (hc : s.ctxs[s.cur]? = some c)
    (hmem : c.memOk = true) (hring : s.ring.ok = true) (hrxs : c.poll.rxs = .decoding) (hcons : s.ring.unread = e :: rest)
    (hd : decodeFrame s.cfg.cryptKey e.bytes e.len.toNat = .ok f) :
    ∃ r, (r.ok = true ∧ r.unread = rest ∧ r.slots = s.ring.slots ∧ r.head = s.ring.head)
      ∧ Memory.Stored 67 c.plainBuf 0 f.plain (c.accepted e f).plainBuf
      ∧ s.proceed = (({ s with ring := r } : State).setCtx (c.accepted e f)).decodeValid f e.ts := by
  obtain ⟨r, hpop, hqueue⟩ := Ring.pop_spec hring hcons
  have he : e.ok = true := Ring.unread_ok hring (hcons ▸ List.mem_cons_self)
  have hshape := decodeFrame_inShape s.cfg.cryptKey e.bytes e.len.toNat
  rw [hd] at hshape
  obtain ⟨hplain, -, -⟩ := hshape
  exact ⟨r, hqueue, plainBuf_stored hmem hplain,
    (State.proceed_decoding hc hrxs).trans (State.decodingStep_valid hc hmem he hpop hd)⟩

end

/-- Settles O47: a known device's entry is marked seen, which changes neither the counters nor what is outstanding. -/
theorem decodingAcceptsKnownDevice : Obligations.DecodingAcceptsKnownDevice := by
  intro s c e rest f k dev inject hc hmem hring hr hcount hrxs hcons hd hk hid hinject
  obtain ⟨r, ⟨hok, hunread, hslots, hhead⟩, hplain, hstep⟩ := State.proceed_valid hc hmem hring hrxs hcons hd
  have hlen := (List.getElem?_eq_some_iff.1 hk).1
  have hout := State.outstanding_eq_pending hr hk
  obtain ⟨u, hu⟩ : ∃ u, u = ({ s with ring := r, devs := s.devs.set k { dev with seen := true } } : State).setCtx
    { c.accepted e f with rCreated := false } := ⟨_, rfl⟩
  have hknown : (({ s with ring := r } : State).setCtx (c.accepted e f)).lookup f.devid = some k :=
    State.lookup_of_registryOk hr hk hid
  have hvalid := hstep.trans (State.decodeValid_of_entry (w := { s with ring := r }) (State.getOrCreate_known hknown ..)
    (State.cur_lt hc) hk rfl hu)
  have hcounted : dev.cc.pending = true → (s.cntActive == 0 && s.cntPrecached == 0) = false := fun hpend =>
    State.counted_of_outstanding hcount hk (hout.trans hpend)
  have hwanted : u.injectWanted k f.recs = inject := by
    have hget : u.devs[k]? = some { dev with seen := true } := by
      rw [hu]
      exact List.getElem?_set_self hlen
    have hfast : dev.cc.pending = true → (u.cntActive == 0 && u.cntPrecached == 0) = false := by
      rw [hu]
      exact hcounted
    rw [State.injectWanted_eq hget hout hfast, hinject, hu]
    rfl
  rw [hwanted] at hvalid
  refine ⟨r, e.bytes, _, _, hok, hunread, hslots, hhead, fun _ => rfl, hplain, rfl, fun h => ?_, fun h => ?_⟩
  · exact hvalid.trans (if_pos h)
  · rw [if_neg (by simp [h]), hu] at hvalid
    exact hvalid

/-! ## A new device (44_retry_sequencer.md R121, R139) -/

section
variable {s : State} {c : Ctx} {k : Nat} {e : Dev}

/-- Post-processing of an entry without an outstanding command and without a known mode, whose telemetry time is the frame's own,
only reports (44_retry_sequencer.md R132 to R135). -/
theorem State.postProcess_fresh {recs : List DecRec} {ts : BitVec 64} (hc : s.ctxs[s.cur]? = some c) (he : s.devs[k]? = some e)
    (hok : e.ok = true) (hpend : e.cc.pending = false) (hmode : e.th.modeKnown = false) (htime : e.th.lastTel = ts) :
    s.postProcess k recs ts = s.setCtx { c with dev := reportOf e, post := wakeReport s.cfg recs } := by
  subst htime
  obtain ⟨-, hextCc, -⟩ := Dev.ok_iff.1 hok
  by_cases hext : e.ext = .thermostat
  · have hcc : e.hasCc = true := hextCc.resolve_left (by simp [hext])
    have hsame : e.thermostatAcked s.cfg (hasOther s.cfg recs) e.th.lastTel = e := by
      simp [Dev.thermostatAcked, Dev.clearedIf, hpend]
    have hnotDue : autoDue s.cfg e (hasPid recs s.cfg.paramWakeup) e.th.lastTel = false := by
      rw [autoDue_eq _ _ _ hcc, hmode]
      simp only [Bool.and_false, Bool.false_and]
    rw [State.postProcess_thermostat_none hc he hext hcc (acked := false) (by rw [hpend, Bool.and_false]) hsame rfl (.inl hnotDue),
      State.acknowledge_nothing he]
    rfl
  · have hack : valveAcked s.cfg e recs = false := by rw [valveAcked, hpend, Bool.and_false, Bool.false_and]
    rw [State.postProcess_valveAcked hc he hext hextCc, hack, show e.clearedIf false = e from rfl, State.acknowledge_nothing he]
    rfl

end

/-- Settles O48: the new entry is seen from the start, has nothing outstanding, and post-processing only reports it. -/
theorem decodingNewDevice : Obligations.DecodingNewDevice := by
  intro s c e rest f hc hmem hring hrxs hcons hd hids
  obtain ⟨r, ⟨hok, hunread, hslots, hhead⟩, hplain, hstep⟩ := State.proceed_valid hc hmem hring hrxs hcons hd
  have hcur := State.cur_lt hc
  have hnew : (({ s with ring := r } : State).setCtx (c.accepted e f)).lookup f.devid = none := State.lookup_none.2 hids
  refine ⟨r, e.bytes, _, _, hok, hunread, hslots, hhead, fun _ => rfl, hplain, rfl, fun hfull => ?_, fun hroom => ?_⟩
  · have hnone := State.getOrCreate_full hnew hfull f.mfr f.prod false true e.ts
    rw [hstep, State.decodeValid, hnone]
    exact State.setCtx_endPoll (s := { s with ring := r, fatal := true }) hcur _ _
  · obtain ⟨dev, hdev⟩ : ∃ dev, dev = newDev s.cfg f.devid f.mfr f.prod false true e.ts := ⟨_, rfl⟩
    have hpend : dev.cc.pending = false := by rw [hdev]; rfl
    have hget : (s.devs ++ [dev])[s.devs.length]? = some dev := List.getElem?_concat_length ..
    have hseen : (s.devs ++ [dev]).set s.devs.length { dev with seen := true } = s.devs ++ [dev] := by
      rw [show ({ dev with seen := true } : Dev) = dev by rw [hdev]; rfl]
      exact State.setDev_self (s := { s with devs := s.devs ++ [dev] }) hget
    obtain ⟨u, hu⟩ : ∃ u, u = ({ s with ring := r, devs := s.devs ++ [dev] } : State).setCtx
      { c.accepted e f with rCreated := true } := ⟨_, rfl⟩
    have hbank : u.ctxs[u.cur]? = some { c.accepted e f with rCreated := true } := by
      rw [hu]
      exact State.setCtx_get (s := { s with ring := r, devs := s.devs ++ [dev] }) hcur _
    have huget : u.devs[s.devs.length]? = some dev := by
      rw [hu]
      exact hget
    have hg : (({ s with ring := r } : State).setCtx (c.accepted e f)).getOrCreate f.devid f.mfr f.prod false true e.ts
        = some (s.devs.length, true, ({ s with ring := r, devs := s.devs ++ [dev] } : State).setCtx (c.accepted e f)) := by
      rw [hdev]
      exact State.getOrCreate_new hnew hroom ..
    have hwanted : u.injectWanted s.devs.length f.recs = false := by
      rw [State.injectWanted_eq huget (by rw [hpend, Bool.and_false]) (by simp [hpend]), hpend, Bool.false_and]
    refine ⟨dev, hdev, ?_⟩
    rw [hstep, State.decodeValid_of_entry hg (by exact hcur) hget hseen hu, hwanted, if_neg Bool.false_ne_true,
      State.postProcess_fresh hbank huget (by rw [hdev]; exact newDev_ok ..) hpend (by rw [hdev]; rfl) (by rw [hdev]; rfl), hu,
      State.setCtx_setCtx, State.setCtx_endPoll (by exact hcur)]
    rfl

end Sys2Proof.Machine
end

section
/-! SUPPORT. GATE_ACQUIRE with its wait step, GATE_RELEASE, SHUTDOWN and NOP: how each ends for the holder of the gate, for another
context, and on a free gate (45_radio_gate.md R147 to R150). -/

namespace Sys2Proof.Machine

section
variable {s u : State} {c : Ctx}

theorem State.gate_held_of_otherHolds (hother : s.otherHolds = true) : s.gate.held = true :=
  (State.otherHolds_iff.1 hother).1

theorem State.holdsGate_of_otherHolds (hother : s.otherHolds = true) : s.holdsGate = false :=
  State.holdsGate_eq_false.2 fun ⟨_, howner⟩ => (State.otherHolds_iff.1 hother).2 howner

/-! ## GATE_ACQUIRE -/

theorem execGateAcquire_already (hc : s.ctxs[s.cur]? = some c) (hown : s.holdsGate = true) :
    execGateAcquire s = .next (s.setCtx (Ctx.done { c with rAlready := true } .ok)) := by
  rw [execGateAcquire, if_pos hown, State.ctx_of hc, State.setCtx_finish (State.cur_lt hc)]

theorem execGateAcquire_waits (hc : s.ctxs[s.cur]? = some c) (hother : s.otherHolds = true) :
    execGateAcquire s = .next (s.setCtx { c with busy := true, poll := { c.poll with rxs := .gateWait } }) := by
  rw [execGateAcquire, if_neg (by simp [State.holdsGate_of_otherHolds hother]),
    if_pos (State.gate_held_of_otherHolds hother), State.ctx_of hc]

theorem execGateAcquire_free (hfree : s.gate.held = false) : execGateAcquire s = .next s.acquireFree := by
  rw [execGateAcquire, if_neg (by simp [State.holdsGate_of_free hfree]), if_neg (by simp [hfree])]

theorem State.acquireFree_taken (hu : u.ctxs[u.cur]? = some c) (htake : s.gateTake = (.taken, u)) :
    s.acquireFree = u.setCtx (Ctx.done { c with rAlready := false } .ok) := by
  rw [State.acquireFree, htake, ← State.setCtx_finish (State.cur_lt hu), ← State.ctx_of hu]

theorem State.acquireFree_failed (hu : u.ctxs[u.cur]? = some c) (htake : s.gateTake = (.fail, u)) :
    s.acquireFree = u.setCtx (c.done .lockUnavailable) := by
  rw [State.acquireFree, htake]
  exact State.raise_eq (State.ctx_of hu) _

/-- The wait ends, and then GATE_ACQUIRE does what it does on a free gate. -/
theorem State.proceed_gateWait_free (hc : s.ctxs[s.cur]? = some c) (hrxs : c.poll.rxs = .gateWait) (hfree : s.gate.held = false) :
    s.proceed = (s.setCtx { c with poll := { c.poll with rxs := .off } }).acquireFree := by
  rw [State.proceed, State.ctx_of hc, hrxs, ← State.setRxs_eq hc]
  exact if_neg (by simp [hfree])

/-! ## GATE_RELEASE and SHUTDOWN -/

theorem execGateRelease_holder (hc : s.ctxs[s.cur]? = some c) (hown : s.holdsGate = true) :
    execGateRelease s = .next (s.freeGate.setCtx (c.done .ok)) := by
  rw [execGateRelease, if_pos hown, State.finish_eq (s := s.freeGate) (State.ctx_of hc)]

theorem execGateRelease_notLockOwner (hc : s.ctxs[s.cur]? = some c) (hgate : s.holdsGate = false) :
    execGateRelease s = .next (s.setCtx (c.done .notLockOwner)) := by
  rw [execGateRelease, if_neg (by simp [hgate]), State.raise_eq (State.ctx_of hc)]

theorem execShutdown_holder (hc : s.ctxs[s.cur]? = some c) (hown : s.holdsGate = true) :
    execShutdown s = .next (((s.logEvent .shutdown).setGate { s.gate with init := false, held := false }).setCtx (c.done .ok)) := by
  rw [execShutdown, if_pos hown, State.finish_eq (s := (s.logEvent .shutdown).setGate _) (State.ctx_of hc)]

theorem execShutdown_notLockOwner (hc : s.ctxs[s.cur]? = some c) (hgate : s.holdsGate = false) :
    execShutdown s = .next (s.setCtx (c.done .notLockOwner)) := by
  rw [execShutdown, if_neg (by simp [hgate]), State.raise_eq (State.ctx_of hc)]

end

/-! ## The statements -/

/-- Settles O50, by who holds the gate, and on a free gate by what `gateTake` answers. -/
theorem gateAcquireResult : Obligations.GateAcquireResult := by
  intro s c hc
  refine ⟨fun hheld howner => ?_, fun hheld howner => ?_, fun hfree hinit => ?_, fun hfree hinit hanswer => ?_,
    fun hfree hinit hanswer => ?_, fun hfree hrxs => ?_⟩
  · exact execGateAcquire_already hc (State.holdsGate_iff.2 ⟨hheld, howner⟩)
  · exact execGateAcquire_waits hc (State.otherHolds_iff.2 ⟨hheld, howner⟩)
  · exact (execGateAcquire_free hfree).trans
      (congrArg _ (State.acquireFree_taken (by exact hc) (State.gateTake_up hfree hinit)))
  · exact (execGateAcquire_free hfree).trans
      (congrArg _ (State.acquireFree_taken (by exact hc) (State.gateTake_started hfree hinit hanswer)))
  · exact (execGateAcquire_free hfree).trans
      (congrArg _ (State.acquireFree_failed (by exact hc) (State.gateTake_failed hfree hinit hanswer)))
  · rw [State.proceed_gateWait_free hc hrxs hfree]
    exact execGateAcquire_free (s := s.setCtx _) hfree

/-- Settles O51, by the holder check of each operation. -/
theorem gateReleaseShutdownNopResult : Obligations.GateReleaseShutdownNopResult := by
  refine ⟨decode_encode .nop, decode_encode .gateRelease, decode_encode .shutdown, fun s c hc => ⟨?_, fun hheld howner => ?_,
    fun hgate => ?_⟩⟩
  · exact congrArg _ (State.finish_eq (State.ctx_of hc) .ok)
  · have hown := State.holdsGate_iff.2 ⟨hheld, howner⟩
    exact ⟨execGateRelease_holder hc hown, execShutdown_holder hc hown⟩
  · have hnot := State.holdsGate_eq_false.2 hgate
    exact ⟨execGateRelease_notLockOwner hc hnot, execShutdown_notLockOwner hc hnot⟩

end Sys2Proof.Machine
end

section
/-! SUPPORT. What of the gate and the port a step can touch (45_radio_gate.md R151): most operations touch neither, and the others
leave both alone while another context holds the gate. -/

namespace Sys2Proof.Machine

/-- What the gate guards: the gate itself and the port log (10_state.md R30, R32). -/
def State.port (s : State) : Gate × List PortEvent := (s.gate, s.events)

theorem State.port_eq_iff {s t : State} : t.port = s.port ↔ t.gate = s.gate ∧ t.events = s.events := Prod.mk_inj

theorem State.gate_of_port_eq {s t : State} (h : t.port = s.port) : t.gate = s.gate := (State.port_eq_iff.1 h).1

/-! ## The shared operations that leave the port alone -/

theorem State.clearCmd_port (s : State) (k : Nat) : (s.clearCmd k).port = s.port := by
  obtain ⟨e, a, p, hclear, -⟩ := s.clearCmd_frame k
  rw [hclear]
  rfl

theorem State.encRecord_port {s t : State} {cmd : Byte} {d : BitVec 32} {bs : List Byte} (h : s.encRecord cmd d = some (bs, t)) :
    t.port = s.port := by
  obtain ⟨q, rfl⟩ := State.encRecord_frame h
  rfl

theorem State.getOrCreate_port {s t : State} {d : BitVec 24} {m p : Byte} {j n : Bool} {ts : BitVec 64} {k : Nat} {created : Bool}
    (h : s.getOrCreate d m p j n ts = some (k, created, t)) : t.port = s.port := by
  rcases s.getOrCreate_cases d m p j n ts with ⟨_, -, hk⟩ | ⟨-, -, hk⟩ | ⟨-, -, hk⟩
  all_goals
    rw [hk] at h
    cases h
  · rfl
  · rfl

theorem State.postProcess_port {s : State} (hcur : s.cur < s.ctxs.length) (k : Nat) (recs : List DecRec) (ts : BitVec 64) :
    (s.postProcess k recs ts).port = s.port := by
  obtain ⟨t, ⟨ds, a, p, q, post, rfl, -⟩, hpost⟩ := State.postProcess_frame hcur k recs ts
  rw [hpost]
  rfl

theorem State.cacheRecord_port (s : State) (k : Nat) (created : Bool) (rec : List Byte) :
    (s.cacheRecord k created rec).port = s.port := rfl

theorem State.cacheUnknown_port (s : State) : s.cacheUnknown.port = s.port := by
  unfold State.cacheUnknown
  simp only
  split_ifs
  · rfl
  · split
    · rfl
    · rename_i hbs
      rw [← State.encRecord_port hbs]
      split
      · rfl
      · rename_i hg
        exact (State.cacheRecord_port ..).trans (State.getOrCreate_port hg)
  · rfl

theorem State.cacheKnown_port (s : State) (k : Nat) : (s.cacheKnown k).port = s.port := by
  unfold State.cacheKnown
  simp only
  split_ifs
  · exact s.clearCmd_port k
  · split
    · rfl
    · rename_i hbs
      exact (State.cacheRecord_port ..).trans (State.encRecord_port hbs)
  · rfl

/-! ## The operations -/

/-- `o` answers a next state with the gate and the port log of `s`. -/
def State.KeepsPortIn (s : State) (o : Host.Outcome State Fault Refusal) : Prop := ∃ t, o = .next t ∧ t.port = s.port

theorem execEncRecord_keepsPort (s : State) : s.KeepsPortIn (execEncRecord s) := by
  refine ⟨_, rfl, ?_⟩
  split_ifs
  · rfl
  · split
    · rfl
    · rename_i hbs
      rw [← State.encRecord_port hbs]
      simp only
      split_ifs <;> rfl

theorem execDevCreate_keepsPort (s : State) : s.KeepsPortIn (execDevCreate s) := by
  refine ⟨_, rfl, ?_⟩
  simp only
  split
  · rfl
  · rename_i hg
    have hport := State.getOrCreate_port hg
    exact hport

theorem execCacheCmd_keepsPort (s : State) : s.KeepsPortIn (execCacheCmd s) := by
  refine ⟨_, rfl, ?_⟩
  split
  · exact s.cacheUnknown_port
  · exact s.cacheKnown_port _

theorem execPostProcess_keepsPort {s : State} (hcur : s.cur < s.ctxs.length) : s.KeepsPortIn (execPostProcess s) := by
  refine ⟨_, rfl, ?_⟩
  split_ifs
  · split
    · rfl
    · exact State.postProcess_port hcur _ _ _
  · rfl

/-- The operations that read the gate's owner: they write the gate, or call the transceiver (45_radio_gate.md R147 to R151). -/
def usesGate : Instr → Bool
  | .txFrame | .rbDrain | .trySend | .gateAcquire | .gateRelease | .shutdown => true
  | _ => false

/-- The other operations leave the gate and the port alone, whoever holds the gate. -/
theorem exec_keepsPort {i : Instr} {s : State} (hcur : s.cur < s.ctxs.length) (hi : usesGate i = false) :
    s.KeepsPortIn (exec i s) := by
  cases i with
  | txFrame | rbDrain | trySend | gateAcquire | gateRelease | shutdown => cases hi
  | nop | rxPoll => exact ⟨_, rfl, rfl⟩
  | crc16 | cipher | buildFrame | decodeFrame | rbPush | devList =>
    refine ⟨_, rfl, ?_⟩
    split_ifs <;> rfl
  | rbPop | rbPeek | devQuery =>
    refine ⟨_, rfl, ?_⟩
    split <;> rfl
  | encRecord => exact execEncRecord_keepsPort s
  | devCreate => exact execDevCreate_keepsPort s
  | cacheCmd => exact execCacheCmd_keepsPort s
  | postProcess => exact execPostProcess_keepsPort hcur

/-- While another context holds the gate, no operation touches it or the port: those that need the gate refuse or wait. -/
theorem exec_keepsPort_of_otherHolds {s : State} (hcur : s.cur < s.ctxs.length) (hother : s.otherHolds = true) (i : Instr) :
    s.KeepsPortIn (exec i s) := by
  have hc := State.ctx_get hcur
  have hnot := State.holdsGate_of_otherHolds hother
  cases hi : usesGate i with
  | false => exact exec_keepsPort hcur hi
  | true =>
    cases i with
    | txFrame => exact ⟨_, execTxFrame_notLockOwner hc hnot, rfl⟩
    | rbDrain => exact ⟨_, execRbDrain_notLockOwner hc hnot, rfl⟩
    | trySend => exact ⟨_, execTrySend_notLockOwner hc hnot, rfl⟩
    | gateAcquire => exact ⟨_, execGateAcquire_waits hc hother, rfl⟩
    | gateRelease => exact ⟨_, execGateRelease_notLockOwner hc hnot, rfl⟩
    | shutdown => exact ⟨_, execShutdown_notLockOwner hc hnot, rfl⟩
    | _ => cases hi

/-- `o` answers a next state with the gate of `s`. -/
def State.KeepsGateIn (s : State) (o : Host.Outcome State Fault Refusal) : Prop := ∃ t, o = .next t ∧ t.gate = s.gate

theorem execTxFrame_keepsGate {s : State} (hcur : s.cur < s.ctxs.length) (hown : s.holdsGate = true) :
    s.KeepsGateIn (execTxFrame s) := by
  have hc := State.ctx_get hcur
  by_cases hlen : s.ctx.txLen = 0 ∨ frameMax < s.ctx.txLen.toNat
  · exact ⟨_, execTxFrame_badOperand hc hown hlen, rfl⟩
  · exact ⟨_, execTxFrame_ok hc hown hlen, rfl⟩

theorem execTrySend_keepsGate {s : State} (hcur : s.cur < s.ctxs.length) (hown : s.holdsGate = true) :
    s.KeepsGateIn (execTrySend s) := by
  have hc := State.ctx_get hcur
  cases hk : s.lookup s.ctx.args.devid with
  | none => exact ⟨_, execTrySend_notFound hc hown hk, rfl⟩
  | some k =>
    obtain ⟨e, he, -⟩ := State.lookup_some hk
    obtain ⟨e', he'⟩ := State.sendCached_get he
    exact ⟨_, execTrySend_known hc hown hk rfl (State.sendCached_bank hc k) he', s.sendCached_gate k⟩

/-- Of the holder's operations, only GATE_RELEASE and SHUTDOWN change the gate (45_radio_gate.md R148, R149). -/
theorem exec_keepsGate_of_holdsGate {i : Instr} {s : State} (hcur : s.cur < s.ctxs.length) (hown : s.holdsGate = true)
    (hrelease : i ≠ .gateRelease) (hshutdown : i ≠ .shutdown) : s.KeepsGateIn (exec i s) := by
  have hc := State.ctx_get hcur
  cases hi : usesGate i with
  | false =>
    obtain ⟨t, ht, hport⟩ := exec_keepsPort hcur hi
    exact ⟨t, ht, State.gate_of_port_eq hport⟩
  | true =>
    cases i with
    | txFrame => exact execTxFrame_keepsGate hcur hown
    | rbDrain => exact ⟨_, execRbDrain_ok hc hown, s.drain_gate⟩
    | trySend => exact execTrySend_keepsGate hcur hown
    | gateAcquire => exact ⟨_, execGateAcquire_already hc hown, rfl⟩
    | gateRelease => exact absurd rfl hrelease
    | shutdown => exact absurd rfl hshutdown
    | _ => cases hi

/-! ## The steps of a waiting context -/

theorem State.decodeEmpty_port (s : State) : s.decodeEmpty.port = s.port := by
  unfold State.decodeEmpty
  simp only
  split_ifs <;> rfl

theorem State.decodeValid_port {s : State} (hcur : s.cur < s.ctxs.length) (f : DecodedFrame) (ts : BitVec 64) :
    (s.decodeValid f ts).port = s.port := by
  unfold State.decodeValid
  split
  · rfl
  · rename_i k created u hg
    have hseen := (((State.Works.refl s).getOrCreate hg).tail (.seen k)).cur_lt hcur
    rw [← State.getOrCreate_port hg]
    simp only
    split_ifs
    · rfl
    · exact State.postProcess_port (State.setCtx_cur_lt hseen _) _ _ _

theorem State.decodingStep_port {s : State} (hcur : s.cur < s.ctxs.length) : s.decodingStep.port = s.port := by
  unfold State.decodingStep
  split
  · exact s.decodeEmpty_port
  · rename_i e r hpop
    extract_lets c d t
    clear_value d
    have ht : t.cur < t.ctxs.length := by simpa [t] using hcur
    split
    · rfl
    · rfl
    · exact State.decodeValid_port ht _ _

/-- While another context holds the gate, DRAINING, INJECT and the wait for the gate hold (44_retry_sequencer.md R138, R141). -/
theorem State.proceed_port_of_otherHolds {s : State} (hcur : s.cur < s.ctxs.length) (hother : s.otherHolds = true) :
    s.proceed.port = s.port := by
  unfold State.proceed
  cases s.ctx.poll.rxs with
  | off => rfl
  | gateWait => exact congrArg State.port (if_pos (State.gate_held_of_otherHolds hother))
  | draining | inject => exact congrArg State.port (if_pos hother)
  | decoding => exact State.decodingStep_port hcur
  | idle =>
    simp only
    split_ifs <;> rfl

theorem State.injectStep_gate {s : State} (hcur : s.cur < s.ctxs.length) (hown : s.holdsGate = true) :
    s.injectStep.gate = s.gate := by
  have hc := State.ctx_get hcur
  have hsent := State.cur_lt (State.sendCached_bank hc s.ctx.poll.dev.toNat)
  rw [State.injectStep_sends (State.gateTake_of_holdsGate hown) nofun hc rfl rfl, ← s.sendCached_gate s.ctx.poll.dev.toNat]
  exact State.gate_of_port_eq (State.postProcess_port (State.setCtx_cur_lt hsent _) _ _ _)

/-- The holder's poll drains and sends with the gate that it has, and keeps it (44_retry_sequencer.md R138, R141). -/
theorem State.proceed_gate_of_holdsGate {s : State} (hcur : s.cur < s.ctxs.length) (hown : s.holdsGate = true) :
    s.proceed.gate = s.gate := by
  have hc := State.ctx_get hcur
  cases hrxs : s.ctx.poll.rxs with
  | off => rw [State.proceed, hrxs]
  | gateWait =>
    rw [State.proceed, hrxs]
    exact congrArg State.gate (if_pos (State.holdsGate_iff.1 hown).1)
  | draining =>
    rw [State.proceed_draining hc hrxs (State.otherHolds_of_holdsGate hown), State.drainingStep_already hc hown]
    exact s.drain_gate
  | decoding =>
    rw [State.proceed_decoding hc hrxs]
    exact State.gate_of_port_eq (State.decodingStep_port hcur)
  | inject =>
    rw [State.proceed_inject hc hrxs (State.otherHolds_of_holdsGate hown)]
    exact State.injectStep_gate hcur hown
  | idle =>
    rw [State.proceed, hrxs]
    simp only
    split_ifs <;> rfl

/-! ## The inputs of a context -/

section
variable {s t : State} {i : Input} {n : Nat} {w : Word}

theorem State.begun_cur_lt (hn : n < s.ctxs.length) : (s.select n).begun.cur < (s.select n).begun.ctxs.length :=
  State.setCtx_cur_lt (s := s.select n) hn _

theorem State.command_port_of_otherHolds (hother : (s.select n).otherHolds = true) (h : s.command n w = .next t) :
    t.port = s.port := by
  obtain ⟨hn, -, hrun⟩ := State.command_next h
  rcases hrun with rfl | ⟨i, hexec⟩
  · rfl
  · obtain ⟨u, hu, hport⟩ := exec_keepsPort_of_otherHolds (s := (s.select n).begun) (State.begun_cur_lt hn) hother i
    cases hexec.symm.trans hu
    exact hport

/-- The holder's command words for GATE_RELEASE and SHUTDOWN are the only ones that change the gate (30_encoding.md R56). -/
theorem State.command_gate_of_holdsGate (hown : (s.select n).holdsGate = true) (h : s.command n w = .next t) :
    t.gate = s.gate ∨ w = 0x31#32 ∨ w = 0x32#32 := by
  obtain ⟨hn, -⟩ := State.command_next h
  rcases State.command_encode h with rfl | ⟨i, rfl, hexec⟩
  · exact .inl rfl
  · by_cases hrelease : i = .gateRelease
    · exact .inr (.inl (hrelease ▸ rfl))
    by_cases hshutdown : i = .shutdown
    · exact .inr (.inr (hshutdown ▸ rfl))
    obtain ⟨u, hu, hgate⟩ := exec_keepsGate_of_holdsGate (s := (s.select n).begun) (State.begun_cur_lt hn) hown hrelease hshutdown
    cases hexec.symm.trans hu
    exact .inl hgate

/-- An input of a context that does not hold the held gate touches neither the gate nor the port (45_radio_gate.md R151). -/
theorem State.take_port_of_otherHolds (hi : inputContext i = some n) (hother : (s.select n).otherHolds = true)
    (h : s.take i = .next t) : t.port = s.port := by
  cases i with
  | hostWrite m v =>
    obtain ⟨-, b, -, rfl⟩ := State.hostWrite_next h
    rfl
  | command m w =>
    cases hi
    exact State.command_port_of_otherHolds hother h
  | proceed m =>
    cases hi
    obtain ⟨hn, rfl⟩ := State.proceedAs_next h
    exact State.proceed_port_of_otherHolds (s := s.select n) hn hother
  | tick | reset => cases hi

/-- An input of the holder leaves the gate alone, or is its GATE_RELEASE or SHUTDOWN (45_radio_gate.md R148, R149). -/
theorem State.take_gate_of_holdsGate (hi : inputContext i = some n) (hown : (s.select n).holdsGate = true)
    (h : s.take i = .next t) : t.gate = s.gate ∨ i = .command n 0x31#32 ∨ i = .command n 0x32#32 := by
  cases i with
  | hostWrite m v =>
    obtain ⟨-, b, -, rfl⟩ := State.hostWrite_next h
    exact .inl rfl
  | command m w =>
    cases hi
    exact (State.command_gate_of_holdsGate hown h).imp_right (Or.imp (congrArg _) (congrArg _))
  | proceed m =>
    cases hi
    obtain ⟨hn, rfl⟩ := State.proceedAs_next h
    exact .inl (State.proceed_gate_of_holdsGate (s := s.select n) hn hown)
  | tick | reset => cases hi

/-- A held gate is the context's own or another's (10_state.md R30). -/
theorem State.holds_or_otherHolds (hheld : s.gate.held = true) : s.holdsGate = true ∨ s.otherHolds = true := by
  rw [State.holdsGate_iff, State.otherHolds_iff]
  tauto

end

/-- Settles O59: an input of a context that is not the holder touches neither gate nor port, and the holder's own changes the gate
only by GATE_RELEASE or SHUTDOWN. -/
theorem gateExclusive : Obligations.GateExclusive := by
  intro s t hctxs _ hheld hstep
  rcases step_cases hstep with ⟨hreset, -⟩ | ⟨d, htick, rfl⟩ | ⟨n, hi, hn, -⟩
  · exact ⟨fun m hm => by simp [hreset, inputContext] at hm, fun _ => .inl hreset⟩
  · exact ⟨fun m hm => by simp [htick, inputContext] at hm, fun hfreed => absurd ⟨hheld, rfl⟩ hfreed⟩
  · have hsel : (s.afterInput.select n).contextsOk = true := State.contextsOk_iff.2 ⟨(State.contextsOk_iff.1 hctxs).1, hn⟩
    have howner := State.holdsGate_iff_owner hsel
    rcases State.holds_or_otherHolds (s := s.afterInput.select n) hheld with hown | hother
    · have hmine : s.gate.owner.toNat = n := (howner.1 hown).2
      refine ⟨fun m hm hne => ?_, fun hfreed => ?_⟩
      · cases hi.symm.trans hm
        exact absurd hmine.symm hne
      · rw [hmine]
        refine .inr ((State.take_gate_of_holdsGate hi hown hstep).resolve_left fun hgate => hfreed ?_)
        rw [hgate]
        exact ⟨hheld, rfl⟩
    · have hport := State.port_eq_iff.1 (State.take_port_of_otherHolds hi hother hstep)
      refine ⟨fun _ _ _ => hport, fun hfreed => absurd ?_ hfreed⟩
      rw [hport.1]
      exact ⟨hheld, rfl⟩

end Sys2Proof.Machine
end

section
/-! SUPPORT. A context takes its own steps (20_memory.md R46): the step of a `proceed` input, one rule for each state of a poll that
holds (44_retry_sequencer.md R138, R141; 45_radio_gate.md R147), and the end of a sleep (44_retry_sequencer.md R142). -/

namespace Sys2Proof.Machine

section
variable {s : State} {c : Ctx} {n : Nat}

theorem step_proceed (hi : s.nextInput = .proceed n) (hc : s.ctxs[n]? = some c) :
    step s = .next (s.afterInput.select n).proceed := by
  have hn : s.afterInput.hasCtx n = true := decide_eq_true (List.getElem?_eq_some_iff.1 hc).1
  rw [step, hi, State.take, State.proceedAs, if_pos hn]

/-! ## A step that is not enabled (60_exceptions.md R159) -/

theorem State.proceed_off (hc : s.ctxs[s.cur]? = some c) (hrxs : c.poll.rxs = .off) : s.proceed = s := by
  rw [State.proceed, State.ctx_of hc, hrxs]

theorem State.proceed_gateWait_held (hc : s.ctxs[s.cur]? = some c) (hrxs : c.poll.rxs = .gateWait) (hheld : s.gate.held = true) :
    s.proceed = s := by
  rw [State.proceed, State.ctx_of hc, hrxs]
  exact if_pos hheld

theorem State.proceed_draining_otherHolds (hc : s.ctxs[s.cur]? = some c) (hrxs : c.poll.rxs = .draining)
    (hother : s.otherHolds = true) : s.proceed = s := by
  rw [State.proceed, State.ctx_of hc, hrxs]
  exact if_pos hother

theorem State.proceed_inject_otherHolds (hc : s.ctxs[s.cur]? = some c) (hrxs : c.poll.rxs = .inject)
    (hother : s.otherHolds = true) : s.proceed = s := by
  rw [State.proceed, State.ctx_of hc, hrxs]
  exact if_pos hother

theorem State.proceed_idle_asleep (hc : s.ctxs[s.cur]? = some c) (hrxs : c.poll.rxs = .idle)
    (hwake : s.now.toNat < c.poll.wake.toNat) : s.proceed = s := by
  rw [State.proceed, State.ctx_of hc, hrxs]
  exact if_neg hwake.not_ge

/-! ## The end of a sleep -/

theorem State.proceed_idle_awake (hc : s.ctxs[s.cur]? = some c) (hrxs : c.poll.rxs = .idle)
    (hwake : c.poll.wake.toNat ≤ s.now.toNat) :
    s.proceed = s.setCtx { c with poll := { c.poll with rxs := .draining } } := by
  rw [State.proceed, State.ctx_of hc, hrxs, ← State.setRxs_eq hc]
  exact if_pos hwake

end

/-- Settles O44, by one rule for each state of the poll: what holds a step leaves the whole state alone, and a sleep ends at its
wake time. -/
theorem waitingStepsHold : Obligations.WaitingStepsHold := by
  refine ⟨fun s n c hi hc => step_proceed hi hc, fun s c hc => ⟨fun hhold => ?_, State.proceed_idle_awake hc⟩⟩
  rcases hhold with hoff | ⟨hwait, hheld⟩ | ⟨hpoll, hheld, howner⟩ | ⟨hidle, hwake⟩
  · exact State.proceed_off hc hoff
  · exact State.proceed_gateWait_held hc hwait hheld
  · have hother : s.otherHolds = true := State.otherHolds_iff.2 ⟨hheld, howner⟩
    rcases hpoll with hdraining | hinject
    · exact State.proceed_draining_otherHolds hc hdraining hother
    · exact State.proceed_inject_otherHolds hc hinject hother
  · exact State.proceed_idle_asleep hc hidle hwake

end Sys2Proof.Machine
end

section
/-! SUPPORT. A platform reset (70_reset_and_hazards.md R166). -/

namespace Sys2Proof.Machine

theorem step_reset {s : State} (hi : s.nextInput = .reset) : step s = .next s.afterInput.platformReset := by
  rw [step, hi, State.take]

/-- Settles O7: the state after is that of reset, but for the configuration, NOW and the environment's choices. -/
theorem platformReset : Obligations.PlatformReset := fun _ hi =>
  ⟨_, step_reset hi, rfl, rfl, rfl, rfl, rfl, rfl, rfl, rfl, rfl, rfl, rfl⟩

end Sys2Proof.Machine
end

section
/-! SUPPORT. The order of the port events (70_reset_and_hazards.md R169, 45_radio_gate.md R151, 60_exceptions.md R163). The key fact is
where the transceiver is when a step calls it: `gateTake` starts it from `down`, and the holder of the gate finds it `up`. -/

namespace Sys2Proof.Machine

/-! ## The phase after a log -/

/-- The port log is one that the rules allow, and leaves the transceiver in phase `p`. -/
def State.PortAt (s : State) (p : PortPhase) : Prop := portRun s.cfg.defaultMode .down s.events = some p

section
variable {s t u : State} {p q : PortPhase}

theorem portRun_concat (mode : RadioMode) (e : PortEvent) (es : List PortEvent) :
    ∀ p, portRun mode p (es ++ [e]) = (portRun mode p es).bind (fun q => portNext mode q e) := by
  induction es with
  | nil =>
    intro p
    simp only [List.nil_append, portRun, Option.bind_some]
    cases portNext mode p e <;> rfl
  | cons f fs ih =>
    intro p
    simp only [List.cons_append, portRun]
    cases portNext mode p f with
    | none => rfl
    | some q => exact ih q

theorem State.PortAt.logEvent {e : PortEvent} (h : s.PortAt p) (hnext : portNext s.cfg.defaultMode p e = some q) :
    (s.logEvent e).PortAt q := by
  rw [State.PortAt, State.logEvent, portRun_concat, h, Option.bind_some, hnext]

/-- The phase that G_INIT stands for. -/
def Gate.phase (g : Gate) : PortPhase := if g.init then .up else .down

theorem Gate.phase_up {g : Gate} (h : g.init = true) : g.phase = .up := if_pos h

theorem Gate.phase_down {g : Gate} (h : g.init = false) : g.phase = .down := if_neg (by simp [h])

theorem State.portOk_iff : s.portOk = true ↔ s.PortAt s.gate.phase := beq_iff_eq

theorem State.PortAt.portOk_up (h : s.PortAt .up) (hinit : s.gate.init = true) : s.portOk = true := by
  rwa [State.portOk_iff, Gate.phase_up hinit]

/-- An update that leaves the port alone keeps the log in order. -/
theorem State.Edits.portOk (h : s.Edits t) (hport : t.port = s.port) (hs : s.portOk = true) : t.portOk = true := by
  obtain ⟨hgate, hevents⟩ := State.port_eq_iff.1 hport
  rwa [State.portOk, hgate, hevents, h.cfg_cur_length.1]

theorem State.endPoll_portOk (s : State) (e : Code) : (s.endPoll e).portOk = s.portOk := rfl

theorem State.postProcess_portOk (hcur : s.cur < s.ctxs.length) (hs : s.portOk = true) (k : Nat) (recs : List DecRec)
    (ts : BitVec 64) : (s.postProcess k recs ts).portOk = true :=
  ((State.Works.refl s).postProcess k recs ts).edits.portOk (State.postProcess_port hcur k recs ts) hs

/-! ## The calls of the transceiver -/

theorem State.PortAt.afterWait (h : s.PortAt .up) : s.afterWait.PortAt (if s.waitAnswer then .reading else .up) :=
  h.logEvent rfl

/-- An answer of `read_frame(67)` has at most 67 bytes (60_exceptions.md R163). -/
theorem State.PortAt.afterRead (h : s.PortAt .reading) : s.afterRead.PortAt .up := by
  refine State.PortAt.logEvent h ?_
  cases hread : s.readAnswer with
  | err => rfl
  | ok d => exact if_pos ⟨rfl, State.readAnswer_length hread⟩

/-- The port takes a frame of 1 to 67 bytes of a buffer (60_exceptions.md R163). -/
theorem State.PortAt.transmit (h : s.PortAt .up) (m : Memory) {n : Nat} (hmin : 1 ≤ n) (hmax : n ≤ frameMax) (rep : Byte) :
    (s.transmit (Memory.readRange m 0 n) rep).PortAt .up := by
  refine State.PortAt.logEvent h (if_pos ?_)
  rw [Memory.readRange_length]
  exact ⟨rfl, hmin, hmax⟩

/-- A drain reads only after the answer that a frame waits (43_ring_buffer.md R113). -/
theorem State.PortAt.drainLoop (n : Nat) : ∀ {s : State}, s.PortAt .up → (State.drainLoop n s).PortAt .up := by
  induction n with
  | zero => exact id
  | succ n ih =>
    intro s h
    have hwait := h.afterWait
    simp only [State.drainLoop]
    split_ifs with hfull hframe
    · exact h
    · rw [if_pos hframe] at hwait
      split
      · exact hwait.afterRead
      · exact ih hwait.afterRead
    · rwa [if_neg hframe] at hwait

/-- A command's frame is one that the port takes (44_retry_sequencer.md R127, R129). -/
theorem State.PortAt.sendCached (h : s.PortAt .up) (hreg : s.registryOk = true) (k : Nat) : (s.sendCached k).2.PortAt .up := by
  cases hout : ((s.dev k).hasCc && (s.dev k).cc.pending) with
  | false => rwa [State.sendCached_idle hout]
  | true =>
    by_cases hspent : (s.dev k).cc.retries = 0
    · rw [State.sendCached_spent rfl hout hspent, State.clearCmd_out rfl hout]
      exact h
    · obtain ⟨hcc, hpend⟩ := Bool.and_eq_true_iff.1 hout
      have hget := State.dev_get_of_hasCc hcc
      obtain ⟨-, -, hframe, hmax, -⟩ := Dev.ok_iff.1 (State.dev_ok hreg hget)
      obtain ⟨-, hmin⟩ := hframe hpend
      have hsent := h.transmit (s.dev k).cc.frame (Nat.one_le_of_lt hmin) hmax s.cfg.txRepeat
      rw [State.transmit_eq, Memory.readRange_length] at hsent
      rw [State.sendCached_sends hget hout hspent]
      exact hsent

/-! ## Taking the gate and putting it back -/

/-- What a context's step needs to keep the port log in order. -/
structure State.PortReady (s : State) : Prop where
  cur : s.cur < s.ctxs.length
  init : s.gate.held = true → s.gate.init = true
  registry : s.registryOk = true
  portOk : s.portOk = true

theorem State.PortReady.holder (hs : s.PortReady) (hown : s.holdsGate = true) : s.gate.init = true ∧ s.PortAt .up := by
  have hinit := hs.init (State.holdsGate_iff.1 hown).1
  exact ⟨hinit, Gate.phase_up hinit ▸ State.portOk_iff.1 hs.portOk⟩

/-- `initialize` is called on a transceiver that is down, and `set_mode` only after its Ok (45_radio_gate.md R146). -/
theorem State.PortReady.gateTake (hs : s.PortReady) {k : Taken} (h : s.gateTake = (k, u)) :
    u.portOk = true ∧ (k ≠ .fail → u.gate.init = true ∧ u.PortAt .up) := by
  have hport := State.portOk_iff.1 hs.portOk
  have hup : u.gate.init = true → u.PortAt .up → u.portOk = true ∧ (k ≠ .fail → u.gate.init = true ∧ u.PortAt .up) :=
    fun hinit hat => ⟨hat.portOk_up hinit, fun _ => ⟨hinit, hat⟩⟩
  rcases s.gateTake_cases with ⟨hown, ht⟩ | ⟨-, hinit, ht⟩ | ⟨-, hinit, hanswer, ht⟩ | ⟨-, hinit, hanswer, ht⟩
  all_goals
    rw [ht] at h
    cases h
  · obtain ⟨hinit, hat⟩ := hs.holder hown
    exact hup hinit hat
  · rw [Gate.phase_up hinit] at hport
    exact hup rfl hport
  · rw [Gate.phase_down hinit] at hport
    have hstart : s.afterInit.PortAt .starting := hport.logEvent (by rw [hanswer]; rfl)
    exact hup rfl (hstart.logEvent (if_pos rfl))
  · rw [Gate.phase_down hinit] at hport
    have hfail : s.afterInit.PortAt .down := hport.logEvent (by rw [hanswer]; rfl)
    refine ⟨State.portOk_iff.2 ?_, fun hne => absurd rfl hne⟩
    rwa [Gate.phase_down (g := s.afterInit.gate) hinit]

/-- The gate put back leaves the transceiver as it is (44_retry_sequencer.md R138). -/
theorem State.putBack_frame (s : State) (k : Taken) : ∃ b, s.putBack k = { s with gate := { s.gate with held := b } } := by
  unfold State.putBack
  split_ifs
  · exact ⟨false, rfl⟩
  · exact ⟨s.gate.held, rfl⟩

theorem State.PortReady.acquireFree (hs : s.PortReady) : s.acquireFree.portOk = true := by
  unfold State.acquireFree
  split
  · rename_i u htake
    exact (hs.gateTake htake).1
  · rename_i k u _ htake
    exact (hs.gateTake htake).1

/-! ## The operations -/

/-- `o` answers a next state with a port log in order. -/
def PortOkIn (o : Host.Outcome State Fault Refusal) : Prop := ∃ t, o = .next t ∧ t.portOk = true

theorem execTxFrame_portOk (hs : s.PortReady) (hown : s.holdsGate = true) : PortOkIn (execTxFrame s) := by
  have hc := State.ctx_get hs.cur
  obtain ⟨hinit, hup⟩ := hs.holder hown
  by_cases hlen : s.ctx.txLen = 0 ∨ frameMax < s.ctx.txLen.toNat
  · exact ⟨_, execTxFrame_badOperand hc hown hlen, hs.portOk⟩
  · obtain ⟨hpos, hmax⟩ := not_or.1 hlen
    have hsent := hup.transmit s.ctx.txBuf (n := s.ctx.txLen.toNat) (by bv_omega) (not_lt.1 hmax) s.ctx.args.repeatCount
    exact ⟨_, execTxFrame_ok hc hown hlen, hsent.portOk_up hinit⟩

theorem State.PortReady.drain (hs : s.PortReady) (hown : s.holdsGate = true) : s.drain.portOk = true := by
  obtain ⟨hinit, hup⟩ := hs.holder hown
  exact (hup.drainLoop 5).portOk_up (s.drain_gate ▸ hinit)

theorem execTrySend_portOk (hs : s.PortReady) (hown : s.holdsGate = true) : PortOkIn (execTrySend s) := by
  have hc := State.ctx_get hs.cur
  obtain ⟨hinit, hup⟩ := hs.holder hown
  cases hk : s.lookup s.ctx.args.devid with
  | none => exact ⟨_, execTrySend_notFound hc hown hk, hs.portOk⟩
  | some k =>
    obtain ⟨e, he, -⟩ := State.lookup_some hk
    obtain ⟨e', he'⟩ := State.sendCached_get he
    have hsent := (hup.sendCached hs.registry k).portOk_up (s.sendCached_gate k ▸ hinit)
    exact ⟨_, execTrySend_known hc hown hk rfl (State.sendCached_bank hc k) he', hsent⟩

theorem execShutdown_portOk (hs : s.PortReady) (hown : s.holdsGate = true) : PortOkIn (execShutdown s) := by
  obtain ⟨-, hup⟩ := hs.holder hown
  have hdown : (s.logEvent .shutdown).PortAt .down := hup.logEvent rfl
  exact ⟨_, execShutdown_holder (State.ctx_get hs.cur) hown, State.portOk_iff.2 hdown⟩

/-- An operation that leaves the port alone keeps the log in order. -/
theorem exec_portOk_of_keepsPort {i : Instr} (hs : s.PortReady) (h : s.KeepsPortIn (exec i s)) : PortOkIn (exec i s) := by
  obtain ⟨t, ht, hport⟩ := h
  exact ⟨t, ht, (exec_edits ht).portOk hport hs.portOk⟩

theorem exec_portOk_of_holdsGate (hs : s.PortReady) (hown : s.holdsGate = true) (i : Instr) : PortOkIn (exec i s) := by
  have hc := State.ctx_get hs.cur
  cases hi : usesGate i with
  | false => exact exec_portOk_of_keepsPort hs (exec_keepsPort hs.cur hi)
  | true =>
    cases i with
    | txFrame => exact execTxFrame_portOk hs hown
    | rbDrain => exact ⟨_, execRbDrain_ok hc hown, hs.drain hown⟩
    | trySend => exact execTrySend_portOk hs hown
    | gateAcquire => exact ⟨_, execGateAcquire_already hc hown, hs.portOk⟩
    | gateRelease => exact ⟨_, execGateRelease_holder hc hown, hs.portOk⟩
    | shutdown => exact execShutdown_portOk hs hown
    | _ => cases hi

/-- On a free gate only GATE_ACQUIRE calls the transceiver. -/
theorem exec_portOk_of_free (hs : s.PortReady) (hfree : s.gate.held = false) (i : Instr) : PortOkIn (exec i s) := by
  have hc := State.ctx_get hs.cur
  have hnot := State.holdsGate_of_free hfree
  cases hi : usesGate i with
  | false => exact exec_portOk_of_keepsPort hs (exec_keepsPort hs.cur hi)
  | true =>
    cases i with
    | txFrame => exact ⟨_, execTxFrame_notLockOwner hc hnot, hs.portOk⟩
    | rbDrain => exact ⟨_, execRbDrain_notLockOwner hc hnot, hs.portOk⟩
    | trySend => exact ⟨_, execTrySend_notLockOwner hc hnot, hs.portOk⟩
    | gateAcquire => exact ⟨_, execGateAcquire_free hfree, hs.acquireFree⟩
    | gateRelease => exact ⟨_, execGateRelease_notLockOwner hc hnot, hs.portOk⟩
    | shutdown => exact ⟨_, execShutdown_notLockOwner hc hnot, hs.portOk⟩
    | _ => cases hi

theorem exec_portOk (hs : s.PortReady) (i : Instr) : PortOkIn (exec i s) := by
  cases hheld : s.gate.held with
  | false => exact exec_portOk_of_free hs hheld i
  | true =>
    rcases State.holds_or_otherHolds hheld with hown | hother
    · exact exec_portOk_of_holdsGate hs hown i
    · exact exec_portOk_of_keepsPort hs (exec_keepsPort_of_otherHolds hs.cur hother i)

/-! ## The steps of a waiting context -/

/-- A context that took the gate holds it, and so finds the transceiver up (44_retry_sequencer.md R138). -/
theorem State.PortReady.drainingStep (hs : s.PortReady) : s.drainingStep.portOk = true := by
  unfold State.drainingStep
  split
  · rename_i u htake
    exact (hs.gateTake htake).1
  · rename_i k u hne htake
    obtain ⟨hinit, hup⟩ := (hs.gateTake htake).2 hne
    obtain ⟨b, hput⟩ := u.drain.putBack_frame k
    rw [hput]
    exact (hup.drainLoop 5).portOk_up (u.drain_gate ▸ hinit)

/-- Likewise for the send of INJECT; the post-processing after it makes no call (44_retry_sequencer.md R141). -/
theorem State.PortReady.injectStep (hs : s.PortReady) (hother : s.otherHolds = false) : s.injectStep.portOk = true := by
  cases htake : s.gateTake with
  | mk k u =>
    have hwork : s.Works u := by simpa [htake] using State.Works.gateTake hother
    obtain ⟨hok, htaken⟩ := hs.gateTake htake
    by_cases hne : k = .fail
    · subst hne
      rw [State.injectStep_failed htake]
      exact hok
    · obtain ⟨hinit, hup⟩ := htaken hne
      have hu := State.ctx_get (hwork.cur_lt hs.cur)
      have hreg : u.registryOk = true := hwork.edits.keep State.Edit.registryOk hs.registry
      have hsent := (hup.sendCached hreg u.ctx.poll.dev.toNat).portOk_up (u.sendCached_gate _ ▸ hinit)
      have hcur := State.cur_lt (State.sendCached_bank hu u.ctx.poll.dev.toNat)
      obtain ⟨b, hput⟩ := (u.sendCached u.ctx.poll.dev.toNat).2.putBack_frame k
      rw [State.injectStep_sends htake hne hu rfl hput, State.endPoll_portOk]
      refine State.postProcess_portOk (State.setCtx_cur_lt ?_ _) ?_ _ _ _
      · exact hcur
      · exact hsent

theorem State.PortReady.proceed (hs : s.PortReady) : s.proceed.portOk = true := by
  have hkept : s.proceed.port = s.port → s.proceed.portOk = true := fun hport =>
    (State.proceed_edits hs.cur).portOk hport hs.portOk
  have hc := State.ctx_get hs.cur
  cases hother : s.otherHolds with
  | true => exact hkept (State.proceed_port_of_otherHolds hs.cur hother)
  | false =>
    cases hrxs : s.ctx.poll.rxs with
    | off => exact hkept (by rw [State.proceed_off hc hrxs])
    | gateWait =>
      cases hheld : s.gate.held with
      | true => exact hkept (by rw [State.proceed_gateWait_held hc hrxs hheld])
      | false =>
        rw [State.proceed_gateWait_free hc hrxs hheld]
        exact State.PortReady.acquireFree ⟨State.setCtx_cur_lt hs.cur _, hs.init, hs.registry, hs.portOk⟩
    | draining =>
      rw [State.proceed_draining hc hrxs hother]
      exact hs.drainingStep
    | decoding => exact hkept (by rw [State.proceed_decoding hc hrxs, State.decodingStep_port hs.cur])
    | inject =>
      rw [State.proceed_inject hc hrxs hother]
      exact hs.injectStep hother
    | idle =>
      refine hkept ?_
      rw [State.proceed, hrxs]
      simp only
      split_ifs <;> rfl

/-! ## The inputs of a context -/

variable {i : Input} {n : Nat} {w : Word}

theorem State.PortReady.command (hs : (s.select n).PortReady) (h : s.command n w = .next t) : t.portOk = true := by
  obtain ⟨hn, -, hrun⟩ := State.command_next h
  rcases hrun with rfl | ⟨i, hexec⟩
  · exact hs.portOk
  · obtain ⟨u, hu, hok⟩ := exec_portOk (s := (s.select n).begun) ⟨State.begun_cur_lt hn, hs.init, hs.registry, hs.portOk⟩ i
    cases hexec.symm.trans hu
    exact hok

theorem State.PortReady.take (hi : inputContext i = some n) (hs : (s.select n).PortReady) (h : s.take i = .next t) :
    t.portOk = true := by
  cases i with
  | hostWrite m v =>
    cases hi
    obtain ⟨-, b, -, rfl⟩ := State.hostWrite_next h
    exact hs.portOk
  | command m w =>
    cases hi
    exact hs.command h
  | proceed m =>
    cases hi
    obtain ⟨-, rfl⟩ := State.proceedAs_next h
    exact hs.proceed
  | tick | reset => cases hi

end

/-- Settles O57: time leaves the log alone, a reset empties it, and a context's step calls the transceiver only where it is up, or
starts it where it is down. -/
theorem portOrderKept : Obligations.PortOrderKept := by
  intro s t hs hstep
  simp only [Bool.and_eq_true] at hs
  obtain ⟨⟨⟨-, hgate⟩, hreg⟩, hport⟩ := hs
  rcases step_cases hstep with ⟨-, rfl⟩ | ⟨d, -, rfl⟩ | ⟨n, hi, hn, -⟩
  · rfl
  · exact hport
  · have hinit : s.gate.held = true → s.gate.init = true := fun hheld => (State.gateOk_iff.1 hgate hheld).1
    have hready : (s.afterInput.select n).PortReady := ⟨hn, hinit, hreg, hport⟩
    exact hready.take hi hstep

end Sys2Proof.Machine
end
